-- ==== Sys2Proof/Word.lean ====
section
/-!
DEFINITION. The word types of the block and their plainest assembly.
-/

namespace Sys2Proof

/-- A byte: the ports, the memories, the short counters (00_scope.md R11, R12). -/
abbrev Byte := BitVec 8

/-- A 16-bit value: CRCs, symbols, Huffman table entries (00_scope.md R11). -/
abbrev Half := BitVec 16

/-- A host register, a 32-bit counter (00_scope.md R11, R12). -/
abbrev Word := BitVec 32

/-- An index into the history window: `log2 N` bits, at most 12 (10_state.md R29, 00_scope.md R9).
DESIGN CHOICE, safe: 12 bits hold it, reduced mod N at every write (log 23). -/
abbrev HistIndex := BitVec 12

end Sys2Proof
end

