-- ==== Sys2Proof/Config.lean ====
section
/-!
DEFINITION. The parameters of the design (00_scope.md R9, R10), the constants R9 fixes, and the free values.
-/

namespace Sys2Proof.Config

/-! ### Constants that R9 fixes -/

/-- Header marker. -/
def SOH : Byte := 0x01

/-- Data-block marker. -/
def STX : Byte := 0x02

/-- Terminator marker. -/
def EOT : Byte := 0x04

/-- Largest data-block payload. -/
def MAX_BLOCK : Byte := 250

/-- Length byte of the resume block, and number of lead bytes. -/
def RESUME_LEN : Byte := 6

/-- Envelope header bytes. -/
def ENV_HDR : Nat := 6

/-- Root frequency that triggers halving. -/
def MAX_FREQ : Nat := 0x8000

/-! ### Parameters -/

/-- The parameters of R9, before R10's constraints. One-bit parameters are Booleans, 1 being `true`. -/
structure RawParams where
  /-- WINDOW_SIZE, N. -/
  windowSize : Nat
  /-- LOOKAHEAD, F. -/
  lookahead : Nat
  /-- THRESHOLD. -/
  threshold : Nat
  /-- HIST_FILL. -/
  histFill : Byte
  /-- IMAGE_CAP. -/
  imageCap : Nat
  /-- LEAD_IN_SUM. -/
  leadInSum : Bool
  /-- CRC_STORE_ORDER, `true` for big-endian. -/
  crcStoreOrder : Bool
  /-- CRC_POLY. -/
  crcPoly : Half
  /-- CRC_INIT. -/
  crcInit : Half
  /-- CRC_REFIN. -/
  crcRefin : Bool
  /-- CRC_REFOUT. -/
  crcRefout : Bool
  /-- CRC_XOROUT. -/
  crcXorout : Half
  /-- CRC_SCOPE, `true` for the image bytes. -/
  crcScope : Bool
deriving DecidableEq, Repr

/-- The constraints of R9 and R10. The widths make the rest of R9's column true. -/
def RawParams.ok (r : RawParams) : Bool :=
  (r.windowSize == 2 ^ Nat.log2 r.windowSize) && decide (128 ≤ r.windowSize) &&
  decide (r.windowSize ≤ 4096) && decide (3 ≤ r.lookahead) && decide (r.lookahead ≤ 255) &&
  decide (r.lookahead < r.windowSize) && decide (r.threshold + 1 ≤ r.lookahead) &&
  decide (6 ≤ r.imageCap) && decide (r.imageCap ≤ 0xFFFFFFFF)

/-- A parameter set that satisfies R10: a set that breaks a constraint cannot be built. -/
abbrev Params := { r : RawParams // r.ok = true }

/-- R10: the model refuses a parameter set that breaks a constraint. -/
def Params.ofRaw? (r : RawParams) : Option Params :=
  if h : r.ok = true then some ⟨r, h⟩ else none

/-- The defaults of R9. -/
def RawParams.default : RawParams where
  windowSize := 2048
  lookahead := 60
  threshold := 2
  histFill := 0x20
  imageCap := 1048576
  leadInSum := false
  crcStoreOrder := false
  crcPoly := 0x1021
  crcInit := 0x0000
  crcRefin := false
  crcRefout := false
  crcXorout := 0x0000
  crcScope := false

/-- The default parameter set. -/
def Params.default : Params := ⟨RawParams.default, by decide⟩

/-- N, the history size. -/
def Params.N (p : Params) : Nat := p.val.windowSize

/-- F, the largest match length. -/
def Params.F (p : Params) : Nat := p.val.lookahead

/-- N_CHAR, the symbol alphabet size: 256 − THRESHOLD + F. -/
def Params.nChar (p : Params) : Nat := 256 - p.val.threshold + p.val.lookahead

/-- T, the Huffman node table size: 2·N_CHAR − 1. -/
def Params.T (p : Params) : Nat := 2 * p.nChar - 1

/-- ROOT, the root node index: T − 1. -/
def Params.root (p : Params) : Nat := p.T - 1

/-- IMAGE_CAP. -/
def Params.cap (p : Params) : Nat := p.val.imageCap

/-! ### Free values (DESIGN CHOICE, safe: log 5, log 6, log 24) -/

/-- What IMG holds at an address that nothing has written since the reset numbered by the first
argument: any value, one byte per address (20_memory.md R65; 93 U1). Uninterpreted. -/
opaque unwrittenImg : Nat → Nat → Byte

/-- What SUBJ holds at an index that nothing has written since the reset numbered by the first
argument: any value (10_state.md R62; 93 U2). Uninterpreted. -/
opaque unwrittenSubj : Nat → Nat → Byte

/-- ERR_ACTUAL of an ImageOverflow with image_len = 2^32 − 1, where image_len + 1 does not fit 32 bits: any value, by
the number of the reset and the offset of the byte (41_framer.md R150; 60_exceptions.md R253). Uninterpreted. -/
opaque overflowActual : Nat → Word → Word

end Sys2Proof.Config
end

