-- ==== Sys2Proof/Syntax.lean ====
section
/-!
DEFINITION. The encoded words of the block and the syntax of its instructions: one constructor per mnemonic of
the opcode table (ERR_MalformedResumeBlock, which names a step of F_RSTX and a step of F_RLEN, has two).
-/

namespace Sys2Proof

/-- The framer's position in the grammar of a message (10_state.md R24). Values 11 to 15 are never held. -/
inductive FState where
  | soh | hlen | subj | offs | rstx | rlen | lead | mark | blen | bdata | csum
deriving DecidableEq, Repr

/-- An encoded word, in one of the six formats of 30_encoding.md. -/
inductive Raw where
  /-- CMD: the value written to the CMD register. -/
  | cmd (w : Word)
  /-- MMIO_RD: a register read at a byte offset. -/
  | mmioRd (offset : BitVec 12)
  /-- MMIO_WR: a register write at a byte offset, with its data. -/
  | mmioWr (offset : BitVec 12) (data : Word)
  /-- FRAME_BYTE: fstate·256 + byte. -/
  | frameByte (w : BitVec 12)
  /-- LZH_SYM: the decoded symbol. -/
  | lzhSym (w : BitVec 9)
  /-- LZH_POS: the first 8 bits of a position code. -/
  | lzhPos (x : Byte)
deriving DecidableEq, Repr

/-- The instructions: every host command, register access, framer operation, symbol class and position class of
spec/opcode_table.json. Bits that a format ignores are no operand. -/
inductive Instr where
  -- format CMD (30_encoding.md R85)
  | nop | run | frameOnly | decodeOnly | abort | clear
  | cmdReserved6 | cmdReserved7 | cmdReserved8 | cmdReserved9 | cmdReservedA | cmdReservedB | cmdReservedC | cmdReservedD | cmdReservedE | cmdReservedF
  -- format MMIO_RD (30_encoding.md R86; 10_state.md R40); `k` is the word within the row's range
  | rdId
  | rdVersion
  | rdCtrl
  | rdCmd
  | rdStatus
  | rdErrCode
  | rdErrOffset
  | rdErrExpected
  | rdErrActual
  | rdConsumed
  | rdHeader
  | rdResumeOffset
  | rdLeadLo
  | rdLeadHi
  | rdBlockCount
  | rdChecksum
  | rdImageLen
  | rdImgAddr
  | rdImgData
  | rdEnvCrc
  | rdDeclaredLen
  | rdOutCount
  | rdIrqStatus
  | rdEngineState
  | rdBitpos
  | rdHistWpos
  | rdParam0
  | rdParam1
  | rdParam2
  | rdParam3
  | rdSubject (k : BitVec 6)
  | rdReserved078 (k : BitVec 1)
  | rdReserved080 (k : BitVec 5)
  | rdReserved200 (k : BitVec 7)
  | rdReserved400 (k : BitVec 8)
  | rdReserved800 (k : BitVec 9)
  -- format MMIO_WR; `v` is the write data
  | wrId (v : Word)
  | wrVersion (v : Word)
  | wrCtrl (v : Word)
  | wrCmd (v : Word)
  | wrStatus (v : Word)
  | wrErrCode (v : Word)
  | wrErrOffset (v : Word)
  | wrErrExpected (v : Word)
  | wrErrActual (v : Word)
  | wrConsumed (v : Word)
  | wrHeader (v : Word)
  | wrResumeOffset (v : Word)
  | wrLeadLo (v : Word)
  | wrLeadHi (v : Word)
  | wrBlockCount (v : Word)
  | wrChecksum (v : Word)
  | wrImageLen (v : Word)
  | wrImgAddr (v : Word)
  | wrImgData (v : Word)
  | wrEnvCrc (v : Word)
  | wrDeclaredLen (v : Word)
  | wrOutCount (v : Word)
  | wrIrqStatus (v : Word)
  | wrEngineState (v : Word)
  | wrBitpos (v : Word)
  | wrHistWpos (v : Word)
  | wrParam0 (v : Word)
  | wrParam1 (v : Word)
  | wrParam2 (v : Word)
  | wrParam3 (v : Word)
  | wrSubject (k : BitVec 6) (v : Word)
  | wrReserved078 (k : BitVec 1) (v : Word)
  | wrReserved080 (k : BitVec 5) (v : Word)
  | wrReserved200 (k : BitVec 7) (v : Word)
  | wrReserved400 (k : BitVec 8) (v : Word)
  | wrReserved800 (k : BitVec 9) (v : Word)
  -- format FRAME_BYTE (30_encoding.md R88); `b` is the byte, where the row leaves it open
  | soh
  | errMissingHeaderMarker (b : Byte)
  | hlen (b : Byte)
  | errMalformedHeaderR1 (b : Byte)
  | subjNul
  | subjByte (b : Byte)
  | offsNul
  | offsDigit (b : Byte)
  | errMalformedHeaderR4 (b : Byte)
  | resStx
  | errMalformedResumeStx (b : Byte)
  | resLen
  | errMalformedResumeLen (b : Byte)
  | leadByte (b : Byte)
  | blkStx
  | blkEot
  | errUnexpectedBlockMarker (b : Byte)
  | blkLen (b : Byte)
  | errBlockLengthInvalid (b : Byte)
  | blkData (b : Byte)
  | csum (b : Byte)
  -- format LZH_SYM (30_encoding.md R92): the literal byte, and the match symbol less 256
  | lit (c : Byte)
  | matchSym (m : Byte)
  -- format LZH_POS (30_encoding.md R94): the first 8 bits of the position code
  | pos3 (x : Byte)
  | pos4 (x : Byte)
  | pos5 (x : Byte)
  | pos6 (x : Byte)
  | pos7 (x : Byte)
  | pos8 (x : Byte)
deriving DecidableEq, Repr

end Sys2Proof
end

