-- ==== Sys2Proof/WellFormed.lean ====
section
/-!
DEFINITION. Which instructions some word encodes: the byte, symbol and prefix ranges of the opcode table's rows
(30_encoding.md R88, R92, R94). The operands of the other constructors may have any value.
-/

namespace Sys2Proof

/-- The operands lie in the ranges of the instruction's rows. -/
def Instr.wf : Instr → Bool
  | .errMissingHeaderMarker b => b != 0x01
  | .hlen b => decide (2 ≤ b.toNat)
  | .errMalformedHeaderR1 b => decide (b.toNat < 2)
  | .subjByte b => b != 0x00
  | .offsDigit b => decide (0x30 ≤ b.toNat) && decide (b.toNat ≤ 0x39)
  | .errMalformedHeaderR4 b => b != 0x00 && !(decide (0x30 ≤ b.toNat) && decide (b.toNat ≤ 0x39))
  | .errMalformedResumeStx b => b != 0x02
  | .errMalformedResumeLen b => b != 0x06
  | .errUnexpectedBlockMarker b => b != 0x02 && b != 0x04
  | .blkLen b => decide (b.toNat ≤ 250)
  | .errBlockLengthInvalid b => decide (250 < b.toNat)
  | .matchSym m => decide (m.toNat ≤ 254)
  | .pos3 x => decide (x.toNat ≤ 0x1F)
  | .pos4 x => decide (0x20 ≤ x.toNat) && decide (x.toNat ≤ 0x4F)
  | .pos5 x => decide (0x50 ≤ x.toNat) && decide (x.toNat ≤ 0x8F)
  | .pos6 x => decide (0x90 ≤ x.toNat) && decide (x.toNat ≤ 0xBF)
  | .pos7 x => decide (0xC0 ≤ x.toNat) && decide (x.toNat ≤ 0xEF)
  | .pos8 x => decide (0xF0 ≤ x.toNat)
  | .nop | .run | .frameOnly | .decodeOnly | .abort | .clear | .cmdReserved6 | .cmdReserved7 | .cmdReserved8 | .cmdReserved9 | .cmdReservedA | .cmdReservedB | .cmdReservedC | .cmdReservedD | .cmdReservedE | .cmdReservedF => true
  | .rdId | .rdVersion | .rdCtrl | .rdCmd | .rdStatus | .rdErrCode
  | .rdErrOffset | .rdErrExpected | .rdErrActual | .rdConsumed | .rdHeader | .rdResumeOffset
  | .rdLeadLo | .rdLeadHi | .rdBlockCount | .rdChecksum | .rdImageLen | .rdImgAddr
  | .rdImgData | .rdEnvCrc | .rdDeclaredLen | .rdOutCount | .rdIrqStatus | .rdEngineState
  | .rdBitpos | .rdHistWpos | .rdParam0 | .rdParam1 | .rdParam2 | .rdParam3
  | .rdSubject _ | .rdReserved078 _ | .rdReserved080 _ | .rdReserved200 _ | .rdReserved400 _ | .rdReserved800 _ => true
  | .wrId _ | .wrVersion _ | .wrCtrl _ | .wrCmd _ | .wrStatus _ | .wrErrCode _
  | .wrErrOffset _ | .wrErrExpected _ | .wrErrActual _ | .wrConsumed _ | .wrHeader _ | .wrResumeOffset _
  | .wrLeadLo _ | .wrLeadHi _ | .wrBlockCount _ | .wrChecksum _ | .wrImageLen _ | .wrImgAddr _
  | .wrImgData _ | .wrEnvCrc _ | .wrDeclaredLen _ | .wrOutCount _ | .wrIrqStatus _ | .wrEngineState _
  | .wrBitpos _ | .wrHistWpos _ | .wrParam0 _ | .wrParam1 _ | .wrParam2 _ | .wrParam3 _
  | .wrSubject _ _ | .wrReserved078 _ _ | .wrReserved080 _ _ | .wrReserved200 _ _ | .wrReserved400 _ _ | .wrReserved800 _ _ => true
  | .soh | .subjNul | .offsNul | .resStx | .resLen | .leadByte _ | .blkStx | .blkEot | .blkData _ | .csum _ => true
  | .lit _ => true

end Sys2Proof
end

