-- ==== Sys2Proof/Decode.lean ====
section
/-!
DEFINITION. The decoder, total on every word and rejecting by name, the encoder, and the decoder of the opcode
table's own words. The tables are 30_encoding.md R85, R86, R88, R92 and R94 and 10_state.md R24 and R40.
-/

namespace Sys2Proof

/-! ### The framer's states (10_state.md R24) -/

/-- The encoding of fstate. -/
def FState.code : FState → BitVec 4
  | .soh => 0
  | .hlen => 1
  | .subj => 2
  | .offs => 3
  | .rstx => 4
  | .rlen => 5
  | .lead => 6
  | .mark => 7
  | .blen => 8
  | .bdata => 9
  | .csum => 10

/-- The framer state of an encoding; 11 to 15 are never held. -/
def FState.ofCode (v : BitVec 4) : Option FState :=
  match v.toNat with
  | 0 => some .soh
  | 1 => some .hlen
  | 2 => some .subj
  | 3 => some .offs
  | 4 => some .rstx
  | 5 => some .rlen
  | 6 => some .lead
  | 7 => some .mark
  | 8 => some .blen
  | 9 => some .bdata
  | 10 => some .csum
  | _ => none

/-! ### Decoding -/

/-- Why a word is no instruction. -/
inductive Reject where
  /-- A FRAME_BYTE word whose fstate is 11 to 15, which no rule writes (R24). -/
  | fstateNeverHeld (code : BitVec 4)
  /-- The symbol word 511: no parameter set has a symbol above 510 (00_scope.md R9). -/
  | symbolOutsideEveryAlphabet
deriving DecidableEq, Repr

/-- What the decoder reads. -/
inductive Decoded where
  | instr (i : Instr)
  | rejected (r : Reject)
deriving DecidableEq, Repr

/-- Format CMD: bits 3:0 select the command, bits 31:4 are ignored (R85). -/
def decodeCmd (w : Word) : Instr :=
  match (w.extractLsb' 0 4).toNat with
  | 0 => .nop
  | 1 => .run
  | 2 => .frameOnly
  | 3 => .decodeOnly
  | 4 => .abort
  | 5 => .clear
  | 6 => .cmdReserved6
  | 7 => .cmdReserved7
  | 8 => .cmdReserved8
  | 9 => .cmdReserved9
  | 10 => .cmdReservedA
  | 11 => .cmdReservedB
  | 12 => .cmdReservedC
  | 13 => .cmdReservedD
  | 14 => .cmdReservedE
  | _ => .cmdReservedF

/-- Format MMIO_RD: offset[11:2] selects the word, offset[1:0] is ignored (R86). -/
def decodeRd (offset : BitVec 12) : Instr :=
  let k := offset.extractLsb' 2 10
  if k.toNat < 30 then
    match k.toNat with
    | 0 => .rdId
    | 1 => .rdVersion
    | 2 => .rdCtrl
    | 3 => .rdCmd
    | 4 => .rdStatus
    | 5 => .rdErrCode
    | 6 => .rdErrOffset
    | 7 => .rdErrExpected
    | 8 => .rdErrActual
    | 9 => .rdConsumed
    | 10 => .rdHeader
    | 11 => .rdResumeOffset
    | 12 => .rdLeadLo
    | 13 => .rdLeadHi
    | 14 => .rdBlockCount
    | 15 => .rdChecksum
    | 16 => .rdImageLen
    | 17 => .rdImgAddr
    | 18 => .rdImgData
    | 19 => .rdEnvCrc
    | 20 => .rdDeclaredLen
    | 21 => .rdOutCount
    | 22 => .rdIrqStatus
    | 23 => .rdEngineState
    | 24 => .rdBitpos
    | 25 => .rdHistWpos
    | 26 => .rdParam0
    | 27 => .rdParam1
    | 28 => .rdParam2
    | _ => .rdParam3
  else if k.toNat < 0x20 then .rdReserved078 (k.extractLsb' 0 1)
  else if k.toNat < 0x40 then .rdReserved080 (k.extractLsb' 0 5)
  else if k.toNat < 0x80 then .rdSubject (k.extractLsb' 0 6)
  else if k.toNat < 0x100 then .rdReserved200 (k.extractLsb' 0 7)
  else if k.toNat < 0x200 then .rdReserved400 (k.extractLsb' 0 8)
  else .rdReserved800 (k.extractLsb' 0 9)

/-- Format MMIO_WR (R86). -/
def decodeWr (offset : BitVec 12) (v : Word) : Instr :=
  let k := offset.extractLsb' 2 10
  if k.toNat < 30 then
    match k.toNat with
    | 0 => .wrId v
    | 1 => .wrVersion v
    | 2 => .wrCtrl v
    | 3 => .wrCmd v
    | 4 => .wrStatus v
    | 5 => .wrErrCode v
    | 6 => .wrErrOffset v
    | 7 => .wrErrExpected v
    | 8 => .wrErrActual v
    | 9 => .wrConsumed v
    | 10 => .wrHeader v
    | 11 => .wrResumeOffset v
    | 12 => .wrLeadLo v
    | 13 => .wrLeadHi v
    | 14 => .wrBlockCount v
    | 15 => .wrChecksum v
    | 16 => .wrImageLen v
    | 17 => .wrImgAddr v
    | 18 => .wrImgData v
    | 19 => .wrEnvCrc v
    | 20 => .wrDeclaredLen v
    | 21 => .wrOutCount v
    | 22 => .wrIrqStatus v
    | 23 => .wrEngineState v
    | 24 => .wrBitpos v
    | 25 => .wrHistWpos v
    | 26 => .wrParam0 v
    | 27 => .wrParam1 v
    | 28 => .wrParam2 v
    | _ => .wrParam3 v
  else if k.toNat < 0x20 then .wrReserved078 (k.extractLsb' 0 1) v
  else if k.toNat < 0x40 then .wrReserved080 (k.extractLsb' 0 5) v
  else if k.toNat < 0x80 then .wrSubject (k.extractLsb' 0 6) v
  else if k.toNat < 0x100 then .wrReserved200 (k.extractLsb' 0 7) v
  else if k.toNat < 0x200 then .wrReserved400 (k.extractLsb' 0 8) v
  else .wrReserved800 (k.extractLsb' 0 9) v

/-- Format FRAME_BYTE, the framer's opcode map (R88). -/
def decodeByte (f : FState) (b : Byte) : Instr :=
  match f with
  | .soh => if b = 0x01 then .soh else .errMissingHeaderMarker b
  | .hlen => if b.toNat < 2 then .errMalformedHeaderR1 b else .hlen b
  | .subj => if b = 0x00 then .subjNul else .subjByte b
  | .offs =>
    if 0x30 ≤ b.toNat ∧ b.toNat ≤ 0x39 then .offsDigit b
    else if b = 0x00 then .offsNul else .errMalformedHeaderR4 b
  | .rstx => if b = 0x02 then .resStx else .errMalformedResumeStx b
  | .rlen => if b = 0x06 then .resLen else .errMalformedResumeLen b
  | .lead => .leadByte b
  | .mark => if b = 0x02 then .blkStx else if b = 0x04 then .blkEot else .errUnexpectedBlockMarker b
  | .blen => if b.toNat ≤ 250 then .blkLen b else .errBlockLengthInvalid b
  | .bdata => .blkData b
  | .csum => .csum b

/-- Format LZH_SYM: bit 8 tells a match symbol from a literal (R92). DEDUCED, safe: 511 is no symbol (log 20). -/
def decodeSym (w : BitVec 9) : Decoded :=
  if w.toNat < 256 then .instr (.lit (w.extractLsb' 0 8))
  else if w.toNat < 511 then .instr (.matchSym (w.extractLsb' 0 8))
  else .rejected .symbolOutsideEveryAlphabet

/-- Format LZH_POS: the six ranges of d_len (R94). -/
def decodePos (x : Byte) : Instr :=
  if x.toNat ≤ 0x1F then .pos3 x
  else if x.toNat ≤ 0x4F then .pos4 x
  else if x.toNat ≤ 0x8F then .pos5 x
  else if x.toNat ≤ 0xBF then .pos6 x
  else if x.toNat ≤ 0xEF then .pos7 x
  else .pos8 x

/-- The decoder. -/
def decode : Raw → Decoded
  | .cmd w => .instr (decodeCmd w)
  | .mmioRd offset => .instr (decodeRd offset)
  | .mmioWr offset v => .instr (decodeWr offset v)
  | .frameByte w =>
    match FState.ofCode (w.extractLsb' 8 4) with
    | some f => .instr (decodeByte f (w.extractLsb' 0 8))
    | none => .rejected (.fstateNeverHeld (w.extractLsb' 8 4))
  | .lzhSym w => decodeSym w
  | .lzhPos x => .instr (decodePos x)

/-! ### Encoding -/

/-- The FRAME_BYTE word of a framer state and a byte: fstate·256 + byte. -/
def frameWord (f : FState) (b : Byte) : BitVec 12 := f.code ++ b

/-- The offset of word `k` of the register window; the ignored bits 1:0 are 0 (R86). -/
def wordOffset (k : BitVec 10) : BitVec 12 := k ++ (0 : BitVec 2)

/-- The encoder: the word of a well-formed instruction, ignored bits 0. -/
def encode : Instr → Raw
  | .nop => .cmd 0
  | .run => .cmd 1
  | .frameOnly => .cmd 2
  | .decodeOnly => .cmd 3
  | .abort => .cmd 4
  | .clear => .cmd 5
  | .cmdReserved6 => .cmd 6
  | .cmdReserved7 => .cmd 7
  | .cmdReserved8 => .cmd 8
  | .cmdReserved9 => .cmd 9
  | .cmdReservedA => .cmd 10
  | .cmdReservedB => .cmd 11
  | .cmdReservedC => .cmd 12
  | .cmdReservedD => .cmd 13
  | .cmdReservedE => .cmd 14
  | .cmdReservedF => .cmd 15
  | .rdId => .mmioRd 0x000
  | .rdVersion => .mmioRd 0x004
  | .rdCtrl => .mmioRd 0x008
  | .rdCmd => .mmioRd 0x00C
  | .rdStatus => .mmioRd 0x010
  | .rdErrCode => .mmioRd 0x014
  | .rdErrOffset => .mmioRd 0x018
  | .rdErrExpected => .mmioRd 0x01C
  | .rdErrActual => .mmioRd 0x020
  | .rdConsumed => .mmioRd 0x024
  | .rdHeader => .mmioRd 0x028
  | .rdResumeOffset => .mmioRd 0x02C
  | .rdLeadLo => .mmioRd 0x030
  | .rdLeadHi => .mmioRd 0x034
  | .rdBlockCount => .mmioRd 0x038
  | .rdChecksum => .mmioRd 0x03C
  | .rdImageLen => .mmioRd 0x040
  | .rdImgAddr => .mmioRd 0x044
  | .rdImgData => .mmioRd 0x048
  | .rdEnvCrc => .mmioRd 0x04C
  | .rdDeclaredLen => .mmioRd 0x050
  | .rdOutCount => .mmioRd 0x054
  | .rdIrqStatus => .mmioRd 0x058
  | .rdEngineState => .mmioRd 0x05C
  | .rdBitpos => .mmioRd 0x060
  | .rdHistWpos => .mmioRd 0x064
  | .rdParam0 => .mmioRd 0x068
  | .rdParam1 => .mmioRd 0x06C
  | .rdParam2 => .mmioRd 0x070
  | .rdParam3 => .mmioRd 0x074
  | .rdSubject k => .mmioRd (wordOffset ((1 : BitVec 4) ++ k))
  | .rdReserved078 k => .mmioRd (wordOffset ((15 : BitVec 9) ++ k))
  | .rdReserved080 k => .mmioRd (wordOffset ((1 : BitVec 5) ++ k))
  | .rdReserved200 k => .mmioRd (wordOffset ((1 : BitVec 3) ++ k))
  | .rdReserved400 k => .mmioRd (wordOffset ((1 : BitVec 2) ++ k))
  | .rdReserved800 k => .mmioRd (wordOffset ((1 : BitVec 1) ++ k))
  | .wrId v => .mmioWr 0x000 v
  | .wrVersion v => .mmioWr 0x004 v
  | .wrCtrl v => .mmioWr 0x008 v
  | .wrCmd v => .mmioWr 0x00C v
  | .wrStatus v => .mmioWr 0x010 v
  | .wrErrCode v => .mmioWr 0x014 v
  | .wrErrOffset v => .mmioWr 0x018 v
  | .wrErrExpected v => .mmioWr 0x01C v
  | .wrErrActual v => .mmioWr 0x020 v
  | .wrConsumed v => .mmioWr 0x024 v
  | .wrHeader v => .mmioWr 0x028 v
  | .wrResumeOffset v => .mmioWr 0x02C v
  | .wrLeadLo v => .mmioWr 0x030 v
  | .wrLeadHi v => .mmioWr 0x034 v
  | .wrBlockCount v => .mmioWr 0x038 v
  | .wrChecksum v => .mmioWr 0x03C v
  | .wrImageLen v => .mmioWr 0x040 v
  | .wrImgAddr v => .mmioWr 0x044 v
  | .wrImgData v => .mmioWr 0x048 v
  | .wrEnvCrc v => .mmioWr 0x04C v
  | .wrDeclaredLen v => .mmioWr 0x050 v
  | .wrOutCount v => .mmioWr 0x054 v
  | .wrIrqStatus v => .mmioWr 0x058 v
  | .wrEngineState v => .mmioWr 0x05C v
  | .wrBitpos v => .mmioWr 0x060 v
  | .wrHistWpos v => .mmioWr 0x064 v
  | .wrParam0 v => .mmioWr 0x068 v
  | .wrParam1 v => .mmioWr 0x06C v
  | .wrParam2 v => .mmioWr 0x070 v
  | .wrParam3 v => .mmioWr 0x074 v
  | .wrSubject k v => .mmioWr (wordOffset ((1 : BitVec 4) ++ k)) v
  | .wrReserved078 k v => .mmioWr (wordOffset ((15 : BitVec 9) ++ k)) v
  | .wrReserved080 k v => .mmioWr (wordOffset ((1 : BitVec 5) ++ k)) v
  | .wrReserved200 k v => .mmioWr (wordOffset ((1 : BitVec 3) ++ k)) v
  | .wrReserved400 k v => .mmioWr (wordOffset ((1 : BitVec 2) ++ k)) v
  | .wrReserved800 k v => .mmioWr (wordOffset ((1 : BitVec 1) ++ k)) v
  | .soh => .frameByte 0x001
  | .errMissingHeaderMarker b => .frameByte (frameWord .soh b)
  | .hlen b => .frameByte (frameWord .hlen b)
  | .errMalformedHeaderR1 b => .frameByte (frameWord .hlen b)
  | .subjNul => .frameByte 0x200
  | .subjByte b => .frameByte (frameWord .subj b)
  | .offsNul => .frameByte 0x300
  | .offsDigit b => .frameByte (frameWord .offs b)
  | .errMalformedHeaderR4 b => .frameByte (frameWord .offs b)
  | .resStx => .frameByte 0x402
  | .errMalformedResumeStx b => .frameByte (frameWord .rstx b)
  | .resLen => .frameByte 0x506
  | .errMalformedResumeLen b => .frameByte (frameWord .rlen b)
  | .leadByte b => .frameByte (frameWord .lead b)
  | .blkStx => .frameByte 0x702
  | .blkEot => .frameByte 0x704
  | .errUnexpectedBlockMarker b => .frameByte (frameWord .mark b)
  | .blkLen b => .frameByte (frameWord .blen b)
  | .errBlockLengthInvalid b => .frameByte (frameWord .blen b)
  | .blkData b => .frameByte (frameWord .bdata b)
  | .csum b => .frameByte (frameWord .csum b)
  | .lit c => .lzhSym ((0 : BitVec 1) ++ c)
  | .matchSym m => .lzhSym ((1 : BitVec 1) ++ m)
  | .pos3 x => .lzhPos x
  | .pos4 x => .lzhPos x
  | .pos5 x => .lzhPos x
  | .pos6 x => .lzhPos x
  | .pos7 x => .lzhPos x
  | .pos8 x => .lzhPos x

/-! ### The opcode table's words -/

/-- The format of a word of `nbits` bits that comes without one (log 12). The table numbers the words of all six
formats from bit 0, so they overlap. Of the one-byte words the command codes 0x0 to 0xF are commands and the rest
position codes. Of the longer words, those the table writes as the whole match of a register read are register
reads, the rest FRAME_BYTE words, and register reads again where fstate would be 11 to 15. -/
def rawOfTableWord (nbits w : Nat) : Raw :=
  if nbits ≤ 8 then
    if w < 16 then .cmd (BitVec.ofNat 32 w) else .lzhPos (BitVec.ofNat 8 w)
  else if (w % 4 = 0 ∧ w < 0x80) ∨ w = 0x80 ∨ w = 0x100 ∨ w = 0x200 ∨ w = 0x400 ∨ w = 0x800 then
    .mmioRd (BitVec.ofNat 12 w)
  else if w < 0xB00 then .frameByte (BitVec.ofNat 12 w)
  else .mmioRd (BitVec.ofNat 12 w)

/-- The instruction the decoder reads from a word of the opcode table. -/
def decodeTableWord (nbits w : Nat) : Option Instr :=
  match decode (rawOfTableWord nbits w) with
  | .instr i => some i
  | .rejected _ => none

end Sys2Proof
end

