-- ==== Sys2Proof/Machine/State.lean ====
section
/-!
DEFINITION. The state of the block and of the agents around it as plain data, the state after reset, and the
reasons a step can stop.
-/

namespace Sys2Proof.Machine

open Sys2Proof.Config (Params)

/-- The engine's top-level position (10_state.md R22). Encodings 6 and 7 are never held. -/
inductive Phase where
  | idle | frame | decode | check | done | error
deriving DecidableEq, Repr

/-- The command that started the current or last run (10_state.md R23). -/
inductive Mode where
  | none | run | frameOnly | decodeOnly
deriving DecidableEq, Repr

/-- The decoder's position (10_state.md R25). Encodings 5 to 7 are never held. -/
inductive DState where
  | env | init | sym | pos | copy
deriving DecidableEq, Repr

/-- Engine control state (10_state.md R22 to R25). -/
structure Ctl where
  phase : Phase
  mode : Mode
  fstate : FState
  dstate : DState
deriving DecidableEq, Repr

/-- Framer datapath registers (10_state.md R27). `lead` is lead[0..5], lowest index first. -/
structure FramerRegs where
  consumed : Word
  hdrLen : Byte
  hdrRem : Byte
  subjLen : Byte
  offsAcc : Word
  offsNdig : Byte
  resumed : Bool
  lead : List Byte
  leadCnt : BitVec 3
  blkLen : Byte
  blkRem : Byte
  blkCount : Word
  sum : Byte
  csumRx : Byte
  csumExp : Byte
  imageLen : Word
deriving DecidableEq, Repr

/-- Envelope registers (10_state.md R28). -/
structure EnvRegs where
  valid : Bool
  crc : Half
  declaredLen : Word
deriving DecidableEq, Repr

/-- Decoder registers (10_state.md R29). `bitpos` is a natural number, as R11 says. -/
structure DecRegs where
  wpos : HistIndex
  bitpos : Nat
  outCount : Word
  sym : Half
  mLen : Byte
  mSrc : HistIndex
  crcCalc : Half
  crcRes : Half
deriving DecidableEq, Repr

/-- The Huffman tables (10_state.md R30): freq[0..T], son[0..T−1], prnt[0..T+N_CHAR−1], lowest index first. -/
structure Huff where
  freq : List Half
  son : List Half
  prnt : List Half
deriving DecidableEq, Repr

/-- Error registers (10_state.md R31). -/
structure ErrRegs where
  code : Byte
  offset : Word
  exp : Word
  act : Word
deriving DecidableEq, Repr

/-- Host-side control state (10_state.md R32). -/
structure HostRegs where
  ctrlCrcEn : Bool
  ctrlStrict : Bool
  ctrlIrqEn : Bool
  cfgCrcEn : Bool
  cfgStrict : Bool
  irqDone : Bool
  irqErr : Bool
  badcmd : Bool
  imgAddr : Word
deriving DecidableEq, Repr

/-- The input port (10_state.md R33): in_valid, in_data, in_end. -/
structure InPort where
  valid : Bool
  data : Byte
  ended : Bool
deriving DecidableEq, Repr

/-- The output port (10_state.md R34): out_valid, out_data. -/
structure OutPort where
  valid : Bool
  data : Byte
deriving DecidableEq, Repr

/-- A memory: the listed addresses with their bytes, addresses strictly rising. -/
abbrev Memory := List Host.Cell

/-- One register access or command of the host (30_encoding.md R98, lines `CMD`, `R` and `W`). -/
inductive HostOp where
  /-- `CMD <mnemonic>`: a write of this value to the CMD register. -/
  | command (w : Word)
  | read (offset : BitVec 12)
  | write (offset : BitVec 12) (data : Word)
deriving DecidableEq, Repr

/-- A move of an agent, as the agenda lists it (10_state.md R21, R33, R34; 70 R280). -/
inductive Move where
  /-- A host step. -/
  | host (op : HostOp)
  /-- The producer's Push(b). -/
  | push (b : Byte)
  /-- The producer's End. -/
  | endInput
  /-- The producer clears in_end: a new transport unit starts. -/
  | clearEnd
  /-- The consumer's Take. -/
  | take
  /-- The engine has the turn. -/
  | engine
  /-- The platform asserts and releases reset. -/
  | reset
deriving DecidableEq, Repr

/-- The state. The last five fields are the model's own (INVENTORY.md, log 1 to 4 and 17). -/
structure State where
  ctl : Ctl
  fr : FramerRegs
  env : EnvRegs
  dec : DecRegs
  huff : Huff
  err : ErrRegs
  host : HostRegs
  inp : InPort
  out : OutPort
  /-- IMG, the image buffer (20_memory.md R65). -/
  img : Memory
  /-- HIST, the history window (20_memory.md R66). -/
  hist : Memory
  /-- SUBJ, the subject buffer (20_memory.md R67). -/
  subj : Memory
  /-- The parameter set the block was built with; no step writes it. -/
  params : Params
  /-- The moves still to come from the agents around the engine, in order. -/
  agenda : List Move
  /-- What the host's last register read returned. -/
  rdata : Word
  /-- The bytes the consumer has taken, newest first. -/
  taken : List Byte
  /-- How many resets there have been. -/
  epoch : Nat
deriving DecidableEq, Repr

/-- Why the machine stops with no next state. -/
inductive Fault where
  /-- Raised by the symbol walk, by `update` and by `reconst` (42_lzhuf.md R187, R188, R191) where the Huffman
  tables hold no tree, so that the pseudocode reads outside a table or never ends. No run gets there, since INIT
  builds a tree before it is read and every update keeps it (R190). Safe: the model stops. -/
  | huffmanUnsound
deriving DecidableEq, Repr

/-- Why an instruction has no meaning. -/
inductive Refusal where
  /-- An instruction whose meaning is not modelled. No arm raises it. Safe: the model stops. -/
  | notModelled (mnemonic : String)
  /-- A word the decoder rejects: raised by the step where the tables' root leads to a symbol that no parameter
  set has. No run gets there. Safe: the model stops. -/
  | undecodable (r : Reject)
deriving DecidableEq, Repr

/-- What a meaning or a step answers. -/
abbrev Result := Host.Outcome State Fault Refusal

/-- The Huffman tables after reset: unspecified by R62; every entry 0 (DESIGN CHOICE, unsafe: log 8). -/
def Huff.zero (p : Params) : Huff where
  freq := List.replicate (p.T + 1) 0
  son := List.replicate p.T 0
  prnt := List.replicate (p.T + p.nChar) 0

/-- The block built with a parameter set, right after reset (10_state.md R62; 70_reset_and_hazards.md R280). -/
def State.resetWith (p : Params) : State where
  ctl := ⟨.idle, .none, .soh, .env⟩
  fr :=
    { consumed := 0, hdrLen := 0, hdrRem := 0, subjLen := 0, offsAcc := 0, offsNdig := 0, resumed := false,
      lead := [0, 0, 0, 0, 0, 0], leadCnt := 0, blkLen := 0, blkRem := 0, blkCount := 0, sum := 0, csumRx := 0,
      csumExp := 0, imageLen := 0 }
  env := ⟨false, 0, 0⟩
  dec := ⟨0, 0, 0, 0, 0, 0, 0, 0⟩
  huff := Huff.zero p
  err := ⟨0, 0, 0, 0⟩
  host := ⟨false, false, false, false, false, false, false, false, 0⟩
  inp := ⟨false, 0, false⟩
  out := ⟨false, 0⟩
  img := []
  hist := []
  subj := []
  params := p
  agenda := []
  rdata := 0
  taken := []
  epoch := 0

/-- The machine right after reset, with the default parameters of 00_scope.md R9. -/
def State.reset : State := State.resetWith Params.default

end Sys2Proof.Machine
end

