-- ==== Sys2Proof/Machine/Ops.lean ====
section
/-!
DEFINITION. The operations the meanings share: memory, the ports, error entry and the return from it, the clearing
of a start command, completion.
-/

namespace Sys2Proof.Machine

open Sys2Proof.Config (Params)

/-! ### Memory (00_scope.md R14; 20_memory.md R65 to R67) -/

/-- The byte listed for an address. -/
def Memory.lookup (a : Nat) : Memory → Option Byte
  | [] => none
  | (k, v) :: rest => if a = k then some v else Memory.lookup a rest

/-- The memory without an entry for an address. -/
def Memory.erase (a : Nat) : Memory → Memory
  | [] => []
  | (k, v) :: rest => if a = k then Memory.erase a rest else (k, v) :: Memory.erase a rest

/-- The memory with a byte listed for an address, addresses still rising. -/
def Memory.insert (a : Nat) (b : Byte) : Memory → Memory
  | [] => [(a, b)]
  | (k, v) :: rest =>
    if a < k then (a, b) :: (k, v) :: rest
    else if a = k then (a, b) :: rest
    else (k, v) :: Memory.insert a b rest

/-- Stores a byte. `fill` is what an unlisted address holds, where that is a fixed byte: storing it removes the
entry. -/
def Memory.write (fill : Option Byte) (a : Nat) (b : Byte) (m : Memory) : Memory :=
  if fill = some b then m.erase a else m.insert a b

/-- Addresses are strictly rising from `lo` on and below `size`, and no entry holds the fill byte. -/
def Memory.wfFrom (size : Nat) (fill : Option Byte) : Nat → Memory → Bool
  | _, [] => true
  | lo, (k, v) :: rest =>
    decide (lo ≤ k) && decide (k < size) && decide (fill ≠ some v) && Memory.wfFrom size fill (k + 1) rest

/-- The canonical form of a memory of `size` bytes. -/
def Memory.wf (size : Nat) (fill : Option Byte) (m : Memory) : Bool := Memory.wfFrom size fill 0 m

/-- MemRead(IMG, a, 1). A byte that nothing has written since reset is a free value (log 5). -/
def State.readImg (s : State) (a : Nat) : Byte :=
  match s.img.lookup a with
  | some b => b
  | none => Config.unwrittenImg s.epoch a

/-- MemWrite(IMG, a, 1, b). -/
def State.writeImg (s : State) (a : Nat) (b : Byte) : State := { s with img := Memory.write none a b s.img }

/-- MemRead(HIST, i, 1). An unlisted index holds HIST_FILL (42_lzhuf.md R185; before the first INIT a
DESIGN CHOICE, unsafe: log 7). -/
def State.readHist (s : State) (i : HistIndex) : Byte :=
  match s.hist.lookup i.toNat with
  | some b => b
  | none => s.params.val.histFill

/-- MemWrite(HIST, i, 1, b). -/
def State.writeHist (s : State) (i : HistIndex) (b : Byte) : State :=
  { s with hist := Memory.write (some s.params.val.histFill) i.toNat b s.hist }

/-- SUBJ[i]. A byte that nothing has written since reset is a free value (log 6). -/
def State.readSubj (s : State) (i : Nat) : Byte :=
  match s.subj.lookup i with
  | some b => b
  | none => Config.unwrittenSubj s.epoch i

/-- SUBJ[i] <- b. -/
def State.writeSubj (s : State) (i : Nat) (b : Byte) : State := { s with subj := Memory.write none i b s.subj }

/-- An index computed in the window: reduced mod N (00_scope.md R63; 42_lzhuf.md R200). -/
def histIndex (p : Params) (n : Nat) : HistIndex := BitVec.ofNat 12 (n % p.N)

/-! ### Busy -/

/-- busy: phase ∈ {FRAME, DECODE, CHECK} (00_scope.md R19). -/
def State.busy (s : State) : Bool :=
  match s.ctl.phase with
  | .frame | .decode | .check => true
  | .idle | .done | .error => false

/-! ### Errors (60_exceptions.md) -/

/-- The errors of 60_exceptions.md R250, without NONE and without InvalidHuffmanCode, which is never raised
(R252). -/
inductive ErrCode where
  | missingHeaderMarker | malformedResumeBlock | unexpectedBlockMarker | checksumMismatch | truncatedInput
  | malformedHeader | blockLengthInvalid | imageOverflow | envelopeTooShort | windowUnderflow
  | truncatedBitstream | lengthMismatch | crcMismatch | aborted
deriving DecidableEq, Repr

/-- The codes of 60_exceptions.md R250. -/
def ErrCode.code : ErrCode → Byte
  | .missingHeaderMarker => 0x01
  | .malformedResumeBlock => 0x02
  | .unexpectedBlockMarker => 0x03
  | .checksumMismatch => 0x04
  | .truncatedInput => 0x05
  | .malformedHeader => 0x06
  | .blockLengthInvalid => 0x07
  | .imageOverflow => 0x08
  | .envelopeTooShort => 0x09
  | .windowUnderflow => 0x11
  | .truncatedBitstream => 0x12
  | .lengthMismatch => 0x20
  | .crcMismatch => 0x21
  | .aborted => 0x30

/-- Error entry: the last writes of a step that raises an error with its context (60_exceptions.md R255). -/
def State.raise (s : State) (e : ErrCode) (offset exp act : Word) : State :=
  { s with
    ctl := { s.ctl with phase := .error }
    err := { code := e.code, offset := offset, exp := exp, act := act }
    host := { s.host with irqErr := true } }

/-- The return from error or completion that CLEAR makes: to IDLE, keeping the error registers (60_exceptions.md
R258; 40_host_commands.md R117). -/
def State.clearPhase (s : State) : State :=
  { s with
    ctl := { s.ctl with phase := .idle }
    host := { s.host with badcmd := false } }

/-- A refused command or write (60_exceptions.md R262). -/
def State.refuse (s : State) : State := { s with host := { s.host with badcmd := true } }

/-- Complete() (43_integrity.md R236). -/
def State.complete (s : State) : State :=
  { s with
    ctl := { s.ctl with phase := .done }
    host := { s.host with irqDone := true } }

/-- StartClear(keep_image_len), the clearing of a start command (40_host_commands.md R115). -/
def State.startClear (s : State) (keepImageLen : Bool) : State :=
  { s with
    fr :=
      { consumed := 0, hdrLen := 0, hdrRem := 0, subjLen := 0, offsAcc := 0, offsNdig := 0, resumed := false,
        lead := [0, 0, 0, 0, 0, 0], leadCnt := 0, blkLen := 0, blkRem := 0, blkCount := 0, sum := 0, csumRx := 0,
        csumExp := 0, imageLen := if keepImageLen then s.fr.imageLen else 0 }
    env := { valid := false, crc := 0, declaredLen := 0 }
    dec := { s.dec with bitpos := 0, outCount := 0, sym := 0, mLen := 0, mSrc := 0, crcCalc := 0, crcRes := 0 }
    err := { code := 0, offset := 0, exp := 0, act := 0 }
    host := { s.host with cfgCrcEn := s.host.ctrlCrcEn, cfgStrict := s.host.ctrlStrict }
    ctl := { s.ctl with fstate := .soh, dstate := .env } }

/-- A start command: refused while busy, else the clearing and then the mode and the first phase
(40_host_commands.md R112 to R114). -/
def State.start (s : State) (keepImageLen : Bool) (mode : Mode) (phase : Phase) : State :=
  if s.busy then s.refuse
  else
    let c := s.startClear keepImageLen
    { c with ctl := { c.ctl with mode := mode, phase := phase } }

/-! ### The ports -/

/-- ConsumeByte() where a byte is offered: it leaves the port and is counted (41_framer.md R140). -/
def State.consumeByte (s : State) : State :=
  { s with
    inp := { s.inp with valid := false }
    fr := { s.fr with consumed := s.fr.consumed + 1 } }

/-- `at`, the message-relative offset of the byte just consumed: consumed − 1. -/
def State.at (s : State) : Word := s.fr.consumed - 1

/-- The framer's next position. -/
def State.gotoF (s : State) (f : FState) : State := { s with ctl := { s.ctl with fstate := f } }

/-- The decoder's next position. -/
def State.gotoD (s : State) (d : DState) : State := { s with ctl := { s.ctl with dstate := d } }

/-- Emit(b): a byte is placed in the output port (42_lzhuf.md R196). -/
def State.emit (s : State) (b : Byte) : State := { s with out := { valid := true, data := b } }

/-- What a register read returns to the host (log 3). -/
def State.answer (s : State) (v : Word) : State := { s with rdata := v }

/-! ### Reset -/

/-- Reset (70_reset_and_hazards.md R280, R282): every register as after power-on, the contents of the memories
unspecified anew. The parameters, the agents' plans and what they have seen are not the block's. -/
def State.resetBlock (s : State) : State :=
  { State.resetWith s.params with
    agenda := s.agenda, rdata := s.rdata, taken := s.taken, epoch := s.epoch + 1 }

end Sys2Proof.Machine
end

