-- ==== Sys2Proof/Machine/Operands.lean ====
section
/-!
DEFINITION. How operands are read and assembled: register fields, the offset's digits, the envelope's bytes, the
body's bits and the position code.
-/

namespace Sys2Proof.Machine

open Sys2Proof.Config (Params)

/-! ### Fields of registers -/

/-- A value placed at bit `lo` of a register. -/
def field {w : Nat} (v : BitVec w) (lo : Nat) : Word := (v.setWidth 32) <<< lo

/-- A flag as a bit. -/
def bit (b : Bool) : BitVec 1 := BitVec.ofBool b

/-- A natural number shown mod 2^32. -/
def word (n : Nat) : Word := BitVec.ofNat 32 n

/-! ### The framer's operands (30_encoding.md R89) -/

/-- The value of an ASCII digit. -/
def digitValue (b : Byte) : Nat := b.toNat - 0x30

/-- The offset with one more digit, exact (41_framer.md R144). -/
def offsetWith (acc : Word) (b : Byte) : Nat := acc.toNat * 10 + digitValue b

/-- The checksum of a sum: `(-sum) & 0xFF` (30_encoding.md R89). -/
def checksumOf (sum : Byte) : Byte := -sum

/-! ### The envelope (20_memory.md R78; 30_encoding.md R90) -/

/-- crc16 from image bytes 0 and 1, in the order of CRC_STORE_ORDER. -/
def State.envelopeCrc (s : State) : Half :=
  if s.params.val.crcStoreOrder then s.readImg 0 ++ s.readImg 1 else s.readImg 1 ++ s.readImg 0

/-- declared_length from image bytes 2 to 5, little-endian. -/
def State.envelopeLength (s : State) : Word := s.readImg 5 ++ s.readImg 4 ++ s.readImg 3 ++ s.readImg 2

/-! ### The body's bits (42_lzhuf.md R181, R182; 20_memory.md R79) -/

/-- body_bits (42_lzhuf.md R181). DESIGN CHOICE, unsafe: 0 for an image below 6 bytes, which no run decodes (log 16). -/
def State.bodyBits (s : State) : Nat := 8 * (s.fr.imageLen.toNat - 6)

/-- Bit k of the body: bit 7 − (k mod 8) of body byte ⌊k/8⌋. -/
def State.bodyBit (s : State) (k : Nat) : Bool := (s.readImg (6 + k / 8)).getLsbD (7 - k % 8)

/-- The state with one more body bit consumed. -/
def State.skipBit (s : State) : State := { s with dec := { s.dec with bitpos := s.dec.bitpos + 1 } }

/-- GetBit(): the next bit and the state after it, or, where the body is used up, the state to raise from. -/
def State.getBit (s : State) : Except State (Bool × State) :=
  if s.dec.bitpos < s.bodyBits then .ok (s.bodyBit s.dec.bitpos, s.skipBit) else .error s

/-- GetBits(n) after the bits already in `v`: v ← (v << 1) | GetBit(), n times. -/
def State.getBits : Nat → Nat → State → Except State (Nat × State)
  | 0, v, s => .ok (v, s)
  | n + 1, v, s =>
    match s.getBit with
    | .error e => .error e
    | .ok (b, s') => State.getBits n (2 * v + b.toNat) s'

/-- TruncatedBitstream with its context (42_lzhuf.md R182, R183). -/
def State.raiseTruncatedBitstream (s : State) : State :=
  s.raise .truncatedBitstream s.fr.imageLen s.env.declaredLen s.dec.outCount

/-! ### The position code (30_encoding.md R94) -/

/-- d_len: the length of the hi code from the first 8 bits. -/
def dLen (x : Byte) : Nat :=
  if x.toNat ≤ 0x1F then 3
  else if x.toNat ≤ 0x4F then 4
  else if x.toNat ≤ 0x8F then 5
  else if x.toNat ≤ 0xBF then 6
  else if x.toNat ≤ 0xEF then 7
  else 8

/-- d_code: hi from the first 8 bits. -/
def dCode (x : Byte) : Nat :=
  if x.toNat ≤ 0x1F then 0
  else if x.toNat ≤ 0x4F then 1 + (x.toNat - 0x20) / 16
  else if x.toNat ≤ 0x8F then 4 + (x.toNat - 0x50) / 8
  else if x.toNat ≤ 0xBF then 12 + (x.toNat - 0x90) / 4
  else if x.toNat ≤ 0xEF then 24 + (x.toNat - 0xC0) / 2
  else 48 + (x.toNat - 0xF0)

/-- The rest of DecodePosition() after its first 8 bits `x`: `extra` = d_len(x) − 2 more bits, of which the last six
are the low part of p, below `hi` (42_lzhuf.md R193). -/
def State.decodePosition (s : State) (hi extra : Nat) (x : Byte) : Except State (Nat × State) :=
  match State.getBits extra x.toNat s with
  | .error e => .error e
  | .ok (v, s') => .ok (64 * hi + v % 64, s')

/-! ### The CRC-16 unit (43_integrity.md R233) -/

/-- reflect(v, w): bit i of the result is bit w − 1 − i of v. -/
def reflect {w : Nat} (v : BitVec w) : BitVec w :=
  BitVec.ofNat w ((List.range w).foldl (fun acc i => 2 * acc + (v.getLsbD i).toNat) 0)

/-- One of the eight shifts of CrcByte. -/
def crcShift (poly c : Half) : Half := if c.getLsbD 15 then (c <<< 1) ^^^ poly else c <<< 1

/-- `n` of the eight shifts of CrcByte. -/
def crcShifts (poly : Half) : Nat → Half → Half
  | 0, c => c
  | n + 1, c => crcShifts poly n (crcShift poly c)

/-- CrcByte(c, b). -/
def crcByte (p : Params) (c : Half) (b : Byte) : Half :=
  let b := if p.val.crcRefin then reflect b else b
  crcShifts p.val.crcPoly 8 (c ^^^ (b.setWidth 16 <<< 8))

/-- CrcFinal(c). -/
def crcFinal (p : Params) (c : Half) : Half := (if p.val.crcRefout then reflect c else c) ^^^ p.val.crcXorout

/-- The fold of CrcByte over bytes, from CRC_INIT. -/
def crcFold (p : Params) (bs : List Byte) : Half := bs.foldl (crcByte p) p.val.crcInit

/-- Image bytes 2 to image_len − 1, the CRC's scope where CRC_SCOPE = 1 (43_integrity.md R234). -/
def State.crcImageBytes (s : State) : List Byte :=
  (List.range (s.fr.imageLen.toNat - 2)).map (fun k => s.readImg (k + 2))

end Sys2Proof.Machine
end

