-- ==== Sys2Proof/Machine/Framer.lean ====
section
/-!
DEFINITION. The framer's operations (41_framer.md R140 to R151), one step per input byte. A meaning starts with the
consumption of the byte that the decoder read it from; the wait and TruncatedInput of ConsumeByte are in Fetch.lean.
-/

namespace Sys2Proof.Machine

/-- A framer error that names the byte just consumed: its offset is `at` (R253). -/
def State.raiseByte (s : State) (e : ErrCode) (exp : Word) (b : Byte) : State :=
  s.raise e s.at exp (b.setWidth 32)

/-- MalformedHeader with its reason (60_exceptions.md R254). -/
def State.raiseHeader (s : State) (reason : Word) (act : Byte) : State :=
  s.raiseByte .malformedHeader reason act

/-- One header byte fewer to read (R143, R144). -/
def State.countHeaderByte (s : State) : State := { s with fr := { s.fr with hdrRem := s.fr.hdrRem - 1 } }

/-- SOH (R141). -/
def execSoh (s : State) : Result := .next (s.consumeByte.gotoF .hlen)

/-- A byte other than SOH in F_SOH (R141). -/
def execErrMissingHeaderMarker (b : Byte) (s : State) : Result :=
  .next (s.consumeByte.raiseByte .missingHeaderMarker 0x01 b)

/-- HLEN (R142). -/
def execHlen (b : Byte) (s : State) : Result :=
  let s := s.consumeByte
  .next ({ s with fr := { s.fr with hdrLen := b, hdrRem := b } }.gotoF .subj)

/-- A header_len below 2 (R142, reason 1): hdr_len has been written, hdr_rem has not. -/
def execErrMalformedHeaderR1 (b : Byte) (s : State) : Result :=
  let s := s.consumeByte
  .next ({ s with fr := { s.fr with hdrLen := b } }.raiseHeader 1 b)

/-- SUBJ_NUL (R143). -/
def execSubjNul (s : State) : Result :=
  let s := s.consumeByte.countHeaderByte
  if s.fr.hdrRem = 0 then .next (s.raiseHeader 3 0x00) else .next (s.gotoF .offs)

/-- SUBJ_BYTE (R143). -/
def execSubjByte (b : Byte) (s : State) : Result :=
  let s := s.consumeByte.countHeaderByte
  let s := s.writeSubj s.fr.subjLen.toNat b
  let s := { s with fr := { s.fr with subjLen := s.fr.subjLen + 1 } }
  if s.fr.hdrRem = 0 then .next (s.raiseHeader 2 b) else .next s

/-- OFFS_NUL (R144). For reason 8 the context is the number of header bytes left over. -/
def execOffsNul (s : State) : Result :=
  let s := s.consumeByte.countHeaderByte
  if s.fr.offsNdig = 0 then .next (s.raiseHeader 7 0x00)
  else if s.fr.hdrRem ≠ 0 then .next (s.raiseHeader 8 s.fr.hdrRem)
  else
    let resumed := s.fr.offsAcc != 0
    .next ({ s with fr := { s.fr with resumed := resumed } }.gotoF (if resumed then .rstx else .mark))

/-- OFFS_DIGIT (R144): the value is computed exactly, and one above 2^32 − 1 is an error. -/
def execOffsDigit (b : Byte) (s : State) : Result :=
  let s := s.consumeByte.countHeaderByte
  let v := offsetWith s.fr.offsAcc b
  if 0xFFFFFFFF < v then .next (s.raiseHeader 5 b)
  else
    let ndig := if s.fr.offsNdig = 255 then 255 else s.fr.offsNdig + 1
    let s := { s with fr := { s.fr with offsAcc := word v, offsNdig := ndig } }
    if s.fr.hdrRem = 0 then .next (s.raiseHeader 6 b) else .next s

/-- A byte of the offset that is neither a digit nor NUL (R144, reason 4). -/
def execErrMalformedHeaderR4 (b : Byte) (s : State) : Result :=
  .next (s.consumeByte.countHeaderByte.raiseHeader 4 b)

/-- RES_STX (R145). -/
def execResStx (s : State) : Result := .next (s.consumeByte.gotoF .rlen)

/-- A byte other than STX where the resume block must start (R145). -/
def execErrMalformedResumeStx (b : Byte) (s : State) : Result :=
  .next (s.consumeByte.raiseByte .malformedResumeBlock 0x02 b)

/-- RES_LEN (R146). -/
def execResLen (s : State) : Result :=
  let s := s.consumeByte
  .next ({ s with fr := { s.fr with leadCnt := 0 } }.gotoF .lead)

/-- A resume block of a length other than 6 (R146). -/
def execErrMalformedResumeLen (b : Byte) (s : State) : Result :=
  .next (s.consumeByte.raiseByte .malformedResumeBlock 0x06 b)

/-- LEAD_BYTE (R147): summed only under LEAD_IN_SUM. DESIGN CHOICE, unsafe: an index above 5, which no run reaches,
stores nothing (log 16). -/
def execLeadByte (b : Byte) (s : State) : Result :=
  let s := s.consumeByte
  let s := { s with fr := { s.fr with
    lead := s.fr.lead.set s.fr.leadCnt.toNat b
    leadCnt := s.fr.leadCnt + 1
    sum := if s.params.val.leadInSum then s.fr.sum + b else s.fr.sum } }
  if s.fr.leadCnt = 6 then .next (s.gotoF .mark) else .next s

/-- BLK_STX (R148). -/
def execBlkStx (s : State) : Result := .next (s.consumeByte.gotoF .blen)

/-- BLK_EOT (R148). -/
def execBlkEot (s : State) : Result := .next (s.consumeByte.gotoF .csum)

/-- A block marker other than STX and EOT (R148). -/
def execErrUnexpectedBlockMarker (b : Byte) (s : State) : Result :=
  .next (s.consumeByte.raiseByte .unexpectedBlockMarker 0x00000402 b)

/-- BLK_LEN (R149). -/
def execBlkLen (b : Byte) (s : State) : Result :=
  let s := s.consumeByte
  .next ({ s with fr := { s.fr with blkLen := b, blkRem := b, blkCount := s.fr.blkCount + 1 } }.gotoF
    (if b = 0 then .mark else .bdata))

/-- A block length above 250 (R149). -/
def execErrBlockLengthInvalid (b : Byte) (s : State) : Result :=
  .next (s.consumeByte.raiseByte .blockLengthInvalid 250 b)

/-- ERR_ACTUAL of ImageOverflow: image_len + 1 (R150; 60_exceptions.md R253). DESIGN CHOICE, safe: the spec does not
say what the 32 bits of err_act hold where the sum is 2^32, which only IMAGE_CAP = 2^32 − 1 allows; there it is a free
value (log 24). -/
def State.overflowActual (s : State) : Word :=
  if s.fr.imageLen = 0xFFFFFFFF then Config.overflowActual s.epoch s.at else s.fr.imageLen + 1

/-- BLK_DATA (R150). The context word of ImageOverflow is a free value where IMAGE_CAP = 2^32 − 1 (log 24). -/
def execBlkData (b : Byte) (s : State) : Result :=
  let s := s.consumeByte
  if s.fr.imageLen.toNat = s.params.cap then
    .next (s.raise .imageOverflow s.at (word s.params.cap) s.overflowActual)
  else
    let s := s.writeImg s.fr.imageLen.toNat b
    let s := { s with fr := { s.fr with
      imageLen := s.fr.imageLen + 1
      sum := s.fr.sum + b
      blkRem := s.fr.blkRem - 1 } }
    if s.fr.blkRem = 0 then .next (s.gotoF .mark) else .next s

/-- CSUM (R151): on success a RUN that is not resumed goes on to decode, every other run completes. -/
def execCsum (b : Byte) (s : State) : Result :=
  let s := s.consumeByte
  let s := { s with fr := { s.fr with csumRx := b, csumExp := checksumOf s.fr.sum } }
  if b ≠ s.fr.csumExp then .next (s.raiseByte .checksumMismatch (s.fr.csumExp.setWidth 32) b)
  else if s.ctl.mode = .run ∧ s.fr.resumed = false then
    .next { s with ctl := { s.ctl with phase := .decode, dstate := .env } }
  else .next s.complete

end Sys2Proof.Machine
end

