-- ==== Sys2Proof/Machine/Huffman.lean ====
section
/-!
DEFINITION. The adaptive Huffman tables: their entries, the initial tree, halving, the update and the symbol walk
(42_lzhuf.md R186 to R191). An operation answers `none` only where its pseudocode would read or write outside a table
or never end, which no tree makes it do (R190; DEDUCED, safe, log 10).
-/

namespace Sys2Proof.Machine

open Sys2Proof.Config (Params)

/-! ### Entries -/

/-- freq[k]. -/
def Huff.freqAt (h : Huff) (k : Nat) : Option Nat := h.freq[k]?.map BitVec.toNat

/-- son[k]. -/
def Huff.sonAt (h : Huff) (k : Nat) : Option Nat := h.son[k]?.map BitVec.toNat

/-- prnt[k]. -/
def Huff.prntAt (h : Huff) (k : Nat) : Option Nat := h.prnt[k]?.map BitVec.toNat

/-- freq[k] <- v. -/
def Huff.setFreq (h : Huff) (k v : Nat) : Option Huff :=
  if k < h.freq.length then some { h with freq := h.freq.set k (BitVec.ofNat 16 v) } else none

/-- son[k] <- v. -/
def Huff.setSon (h : Huff) (k v : Nat) : Option Huff :=
  if k < h.son.length then some { h with son := h.son.set k (BitVec.ofNat 16 v) } else none

/-- prnt[k] <- v. -/
def Huff.setPrnt (h : Huff) (k v : Nat) : Option Huff :=
  if k < h.prnt.length then some { h with prnt := h.prnt.set k (BitVec.ofNat 16 v) } else none

/-- The parent entries of a subtree are set: prnt[i], and prnt[i + 1] where i is the first of two children. -/
def Huff.setParent (t : Nat) (h : Huff) (i p : Nat) : Option Huff :=
  match h.setPrnt i p with
  | none => none
  | some h' => if i < t then h'.setPrnt (i + 1) p else some h'

/-! ### StartHuff (R186) -/

/-- The frequencies of the internal nodes in the order they are built: each is the sum of the two lowest unpaired
nodes, and joins the unpaired nodes at the end. -/
def pairSums : Nat → List Half → List Half
  | n + 1, a :: b :: rest => (a + b) :: pairSums n (rest ++ [a + b])
  | _, _ => []

/-- The initial tables: leaf c at node c with frequency 1; internal node N_CHAR + m over nodes 2m and 2m + 1; the
sentinel freq[T] = 0xFFFF; prnt[R] = 0. DEDUCED, safe: the entries that the loops of R186 leave (log 22). -/
def startHuff (p : Params) : Huff where
  freq := List.replicate p.nChar 1 ++ pairSums (p.T - p.nChar) (List.replicate p.nChar 1) ++ [0xFFFF]
  son :=
    (List.range p.nChar).map (fun c => BitVec.ofNat 16 (c + p.T)) ++
      (List.range (p.T - p.nChar)).map (fun m => BitVec.ofNat 16 (2 * m))
  prnt :=
    (List.range p.root).map (fun k => BitVec.ofNat 16 (p.nChar + k / 2)) ++ [0] ++
      (List.range p.nChar).map (fun c => BitVec.ofNat 16 c)

/-! ### reconst (R187) -/

/-- A node's frequency and son entry. -/
abbrev HuffNode := Half × Half

/-- Step 1: the leaves in node order, frequencies halved upwards. -/
def halvedLeaves (t : Nat) (nodes : List HuffNode) : List HuffNode :=
  (nodes.filter (fun n => decide (t ≤ n.2.toNat))).map (fun n => (BitVec.ofNat 16 ((n.1.toNat + 1) / 2), n.2))

/-- The insertion point below index k: just after the last node with a frequency of at most f, searched downwards. -/
def insertionPoint (nodes : List HuffNode) (f : Half) : Nat → Nat
  | 0 => 0
  | k + 1 =>
    match nodes[k]? with
    | some n => if f.toNat < n.1.toNat then insertionPoint nodes f k else k + 1
    | none => insertionPoint nodes f k

/-- Step 2, from the pair of nodes i and i + 1 on, `n` internal nodes still to build. -/
def rebuildFrom : Nat → Nat → List HuffNode → Option (List HuffNode)
  | 0, _, nodes => some nodes
  | n + 1, i, nodes =>
    match nodes[i]?, nodes[i + 1]? with
    | some a, some b =>
      let f := a.1 + b.1
      let k := insertionPoint nodes f nodes.length
      rebuildFrom n (i + 2) (nodes.take k ++ (f, BitVec.ofNat 16 i) :: nodes.drop k)
    | _, _ => none

/-- Step 3, for the nodes from i on, with their son entries: the parents. -/
def reparentFrom (t : Nat) : Nat → List Half → Huff → Option Huff
  | _, [], h => some h
  | i, k :: rest, h =>
    match h.setParent t k.toNat i with
    | none => none
    | some h' => reparentFrom t (i + 1) rest h'

/-- reconst(): halves every frequency and rebuilds the tree. freq[T] is not touched. -/
def reconst (p : Params) (h : Huff) : Option Huff :=
  let leaves := halvedLeaves p.T ((h.freq.take p.T).zip h.son)
  if leaves.length = p.nChar then
    match rebuildFrom (p.T - p.nChar) 0 leaves with
    | none => none
    | some nodes =>
      let sons := nodes.map Prod.snd
      reparentFrom p.T 0 sons { h with freq := nodes.map Prod.fst ++ h.freq.drop p.T, son := sons }
  else none

/-! ### update (R188) -/

/-- The last node from l on whose successor is not below k: `while k > freq[l + 1]: l <- l + 1`. -/
def Huff.lastBelow (h : Huff) (k : Nat) : Nat → Nat → Option Nat
  | 0, _ => none
  | fuel + 1, l =>
    match h.freqAt (l + 1) with
    | none => none
    | some f => if f < k then Huff.lastBelow h k fuel (l + 1) else some l

/-- The swap of node n, whose frequency is now k, with node l: frequencies, sons and the parents of their subtrees. -/
def Huff.swap (t : Nat) (h : Huff) (n l k : Nat) : Option Huff := do
  let fl ← h.freqAt l
  let h ← h.setFreq n fl
  let h ← h.setFreq l k
  let i ← h.sonAt n
  let h ← h.setParent t i l
  let j ← h.sonAt l
  let h ← h.setSon l i
  let h ← h.setParent t j n
  h.setSon n j

/-- One turn of the loop at node n: the frequency is counted and, where the order is broken, the node changes places.
Answers the tables and the node's index afterwards. -/
def Huff.bump (t : Nat) (h : Huff) (n : Nat) : Option (Huff × Nat) := do
  let f ← h.freqAt n
  let h ← h.setFreq n (f + 1)
  let k ← h.freqAt n
  let above ← h.freqAt (n + 1)
  if above < k then
    let l ← h.lastBelow k t (n + 1)
    let h ← h.swap t n l k
    some (h, l)
  else some (h, n)

/-- The loop: from node n up to the root. -/
def Huff.climb (t : Nat) : Nat → Huff → Nat → Option Huff
  | 0, _, _ => none
  | fuel + 1, h, n =>
    match h.bump t n with
    | none => none
    | some (h', n') =>
      match h'.prntAt n' with
      | none => none
      | some 0 => some h'
      | some q => Huff.climb t fuel h' q

/-- The tables that `update` starts from: rebuilt where the root's frequency has reached MAX_FREQ. -/
def Huff.halvedIfFull (p : Params) (h : Huff) : Option Huff :=
  match h.freqAt p.root with
  | none => none
  | some f => if f = Config.MAX_FREQ then reconst p h else some h

/-- update(c): one occurrence of symbol c. -/
def Huff.update (p : Params) (h : Huff) (c : Nat) : Option Huff :=
  match h.halvedIfFull p with
  | none => none
  | some h' =>
    match h'.prntAt (c + p.T) with
    | none => none
    | some n => Huff.climb p.T p.T h' n

/-! ### The symbol walk (R191) -/

/-- What the walk from the root finds. -/
inductive WalkResult where
  /-- A leaf: its symbol, and the state with the code's bits consumed. -/
  | leaf (c : Nat) (s : State)
  /-- The body ended inside the code; the state to raise from. -/
  | truncated (s : State)
  /-- A son entry outside the tables. -/
  | unsound

/-- `while n < T: n <- son[n + GetBit()]`, with `left` body bits left. -/
def walkFrom : Nat → Nat → State → WalkResult
  | left, n, s =>
    if s.params.T ≤ n then .leaf (n - s.params.T) s
    else
      match left with
      | 0 => .truncated s
      | left + 1 =>
        match s.huff.sonAt (n + (s.bodyBit s.dec.bitpos).toNat) with
        | none => .unsound
        | some n' => walkFrom left n' s.skipBit

/-- The symbol code at the current bit position, read from the root. -/
def State.walk (s : State) : WalkResult :=
  match s.huff.sonAt s.params.root with
  | none => .unsound
  | some n => walkFrom (s.bodyBits - s.dec.bitpos) n s

end Sys2Proof.Machine
end

