-- ==== Sys2Proof/Machine/Lzhuf.lean ====
section
/-!
DEFINITION. The decoder's operations (42_lzhuf.md R180 to R196) and the CRC post-check (43_integrity.md R234). LIT and
MATCH act on the state in which the symbol's code has been read, POS3 to POS8 on the state in which the first 8 bits
of the position code have been read; those reads are in Fetch.lean.
-/

namespace Sys2Proof.Machine

/-- An output byte leaves the decoder: it is emitted, enters the window at wpos, is counted and enters the running CRC
(R192, R195; 43_integrity.md R235). -/
def State.output (s : State) (b : Byte) : State :=
  let s := s.emit b
  let s := s.writeHist s.dec.wpos b
  { s with dec := { s.dec with
    wpos := histIndex s.params (s.dec.wpos.toNat + 1)
    outCount := s.dec.outCount + 1
    crcCalc := crcByte s.params s.dec.crcCalc b } }

/-- A symbol is decoded: `sym` holds it and the tree is updated, before any position bit is read (R189, R191). -/
def State.takeSymbol (s : State) (c : Nat) : Option State :=
  match s.huff.update s.params c with
  | none => none
  | some h => some { s with huff := h, dec := { s.dec with sym := BitVec.ofNat 16 c } }

/-- LIT: the symbol is the literal byte c (R191, R192). -/
def execLit (c : Byte) (s : State) : Result :=
  match s.takeSymbol c.toNat with
  | none => .fault .huffmanUnsound
  | some s' => .next (s'.output c)

/-- MATCH: the symbol is 256 + m, and its position code follows (R191). -/
def execMatchSym (m : Byte) (s : State) : Result :=
  match s.takeSymbol (256 + m.toNat) with
  | none => .fault .huffmanUnsound
  | some s' => .next (s'.gotoD .pos)

/-- The window check of R194: p names a byte outside the window or, in strict mode, before the first output byte. -/
def State.underflows (s : State) (p : Nat) : Bool :=
  decide (s.params.N ≤ p) || (s.host.cfgStrict && decide (s.dec.outCount.toNat < p + 1))

/-- The match length of the decoded symbol (R194). -/
def State.matchLength (s : State) : Byte := BitVec.ofNat 8 (s.dec.sym.toNat - 256 + s.params.val.threshold + 1)

/-- The step in D_POS once the first 8 bits are read: the rest of the code, the window check, the match's source and
length (R193, R194). -/
def State.position (s : State) (hi extra : Nat) (x : Byte) : State :=
  match s.decodePosition hi extra x with
  | .error e => e.raiseTruncatedBitstream
  | .ok (p, s) =>
    if s.underflows p then
      s.raise .windowUnderflow (word (6 + s.dec.bitpos / 8)) (word (min s.dec.outCount.toNat s.params.N)) (word (p + 1))
    else
      { s with dec := { s.dec with
          mSrc := histIndex s.params (s.dec.wpos.toNat + s.params.N - p - 1)
          mLen := s.matchLength } }.gotoD .copy

/-- POS3: hi is 0, one bit follows (30_encoding.md R94). -/
def execPos3 (x : Byte) (s : State) : Result := .next (s.position 0 1 x)

/-- POS4: hi is 1 + (x − 0x20) div 16, two bits follow. -/
def execPos4 (x : Byte) (s : State) : Result := .next (s.position (1 + (x.toNat - 0x20) / 16) 2 x)

/-- POS5: hi is 4 + (x − 0x50) div 8, three bits follow. -/
def execPos5 (x : Byte) (s : State) : Result := .next (s.position (4 + (x.toNat - 0x50) / 8) 3 x)

/-- POS6: hi is 12 + (x − 0x90) div 4, four bits follow. -/
def execPos6 (x : Byte) (s : State) : Result := .next (s.position (12 + (x.toNat - 0x90) / 4) 4 x)

/-- POS7: hi is 24 + (x − 0xC0) div 2, five bits follow. -/
def execPos7 (x : Byte) (s : State) : Result := .next (s.position (24 + (x.toNat - 0xC0) / 2) 5 x)

/-- POS8: hi is 48 + (x − 0xF0), six bits follow. -/
def execPos8 (x : Byte) (s : State) : Result := .next (s.position (48 + (x.toNat - 0xF0)) 6 x)

/-! ### The engine steps that have no row in the opcode table -/

/-- ENV (R180). -/
def stepEnv (s : State) : State :=
  if s.fr.imageLen.toNat < 6 then s.raise .envelopeTooShort s.fr.imageLen 6 s.fr.imageLen
  else
    { s with
      env := { valid := true, crc := s.envelopeCrc, declaredLen := s.envelopeLength }
      dec := { s.dec with bitpos := 0 } }.gotoD .init

/-- INIT (R185): every history byte holds HIST_FILL, which an unlisted index reads as. -/
def stepInit (s : State) : State :=
  { s with
    hist := []
    huff := startHuff s.params
    dec := { s.dec with
      wpos := histIndex s.params (s.params.N - s.params.F)
      crcCalc := s.params.val.crcInit } }.gotoD .sym

/-- COPY (R195): one match byte, read before the same step overwrites its place; a match that would run past
declared_len is cut. -/
def stepCopy (s : State) : State :=
  if s.out.valid then s
  else if s.dec.outCount = s.env.declaredLen then { s with dec := { s.dec with mLen := 0 } }.gotoD .sym
  else
    let s := s.output (s.readHist s.dec.mSrc)
    let s := { s with dec := { s.dec with
      mSrc := histIndex s.params (s.dec.mSrc.toNat + 1)
      mLen := s.dec.mLen - 1 } }
    if s.dec.mLen = 0 then s.gotoD .sym else s

/-- The CRC that CHECK compares, before CrcFinal (43_integrity.md R234). -/
def State.checkedCrc (s : State) : Half :=
  if s.params.val.crcScope then crcFold s.params s.crcImageBytes else s.dec.crcCalc

/-- CHECK (43_integrity.md R234). -/
def stepCheck (s : State) : State :=
  if s.out.valid then s
  else
    let s := { s with dec := { s.dec with crcRes := crcFinal s.params s.checkedCrc } }
    if s.dec.crcRes ≠ s.env.crc then
      s.raise .crcMismatch 0 (s.env.crc.setWidth 32) (s.dec.crcRes.setWidth 32)
    else s.complete

end Sys2Proof.Machine
end

