-- ==== Sys2Proof/Machine/Flags.lean ====
section
/-!
DEFINITION. The encodings of the control state, the STATUS bits and the interrupt line (10_state.md R22 to R25, R35,
R36, R43).
-/

namespace Sys2Proof.Machine

/-- The encoding of phase (R22). -/
def Phase.code : Phase → BitVec 3
  | .idle => 0
  | .frame => 1
  | .decode => 2
  | .check => 3
  | .done => 4
  | .error => 5

/-- The encoding of mode (R23). -/
def Mode.code : Mode → BitVec 2
  | .none => 0
  | .run => 1
  | .frameOnly => 2
  | .decodeOnly => 3

/-- The encoding of dstate (R25). -/
def DState.code : DState → BitVec 3
  | .env => 0
  | .init => 1
  | .sym => 2
  | .pos => 3
  | .copy => 4

/-- STATUS.IN_WAIT (R43). -/
def State.inWait (s : State) : Bool := s.ctl.phase == .frame && !s.inp.valid && !s.inp.ended

/-- STATUS.OUT_WAIT (R43). -/
def State.outWait (s : State) : Bool :=
  s.ctl.phase == .decode && (s.ctl.dstate == .sym || s.ctl.dstate == .copy) && s.out.valid

/-- STATUS (R43). -/
def State.status (s : State) : Word :=
  field s.ctl.phase.code 0 ||| field (bit s.busy) 3 ||| field (bit (s.ctl.phase == .done)) 4 |||
  field (bit (s.ctl.phase == .error)) 5 ||| field (bit s.fr.resumed) 6 ||| field (bit s.env.valid) 7 |||
  field (bit s.host.badcmd) 8 ||| field (bit s.inWait) 9 ||| field (bit s.outWait) 10 |||
  field s.ctl.mode.code 11

/-- The interrupt line: level, masked by CTRL.IRQ_EN (R35; 60_exceptions.md R260). -/
def State.irq (s : State) : Bool := s.host.ctrlIrqEn && (s.host.irqDone || s.host.irqErr)

end Sys2Proof.Machine
end

