-- ==== Sys2Proof/Machine/Registers.lean ====
section
/-!
DEFINITION. What each register of the map shows (10_state.md R40 to R61).
-/

namespace Sys2Proof.Machine

/-- ID (R40). -/
def idValue : Word := 0x42324644

/-- VERSION (R40). -/
def versionValue : Word := 0x00000001

/-- CTRL (R41). -/
def State.regCtrl (s : State) : Word :=
  field (bit s.host.ctrlCrcEn) 0 ||| field (bit s.host.ctrlStrict) 1 ||| field (bit s.host.ctrlIrqEn) 2

/-- ERR_CODE (R44). -/
def State.regErrCode (s : State) : Word := field s.err.code 0

/-- HEADER (R46). -/
def State.regHeader (s : State) : Word := field s.fr.hdrLen 0 ||| field s.fr.subjLen 8

/-- lead[i] (R27). -/
def State.leadAt (s : State) (i : Nat) : Byte := s.fr.lead.getD i 0

/-- LEAD_LO (R48). -/
def State.regLeadLo (s : State) : Word :=
  field (s.leadAt 0) 0 ||| field (s.leadAt 1) 8 ||| field (s.leadAt 2) 16 ||| field (s.leadAt 3) 24

/-- LEAD_HI (R48). -/
def State.regLeadHi (s : State) : Word :=
  field (s.leadAt 4) 0 ||| field (s.leadAt 5) 8 ||| field s.fr.leadCnt 16

/-- CHECKSUM (R50). -/
def State.regChecksum (s : State) : Word :=
  field s.fr.csumRx 0 ||| field s.fr.csumExp 8 ||| field s.fr.sum 16

/-- ENV_CRC (R54). -/
def State.regEnvCrc (s : State) : Word := field s.env.crc 0 ||| field s.dec.crcRes 16

/-- IRQ_STATUS (R57). -/
def State.regIrqStatus (s : State) : Word := field (bit s.host.irqDone) 0 ||| field (bit s.host.irqErr) 1

/-- ENGINE_STATE (R58). -/
def State.regEngineState (s : State) : Word := field s.ctl.fstate.code 0 ||| field s.ctl.dstate.code 4

/-- BITPOS (R59). -/
def State.regBitpos (s : State) : Word := word s.dec.bitpos

/-- HIST_WPOS (R59). -/
def State.regHistWpos (s : State) : Word := field s.dec.wpos 0

/-- PARAM0 (R60). -/
def State.regParam0 (s : State) : Word :=
  let p := s.params.val
  field (BitVec.ofNat 8 (Nat.log2 p.windowSize)) 0 ||| field (BitVec.ofNat 8 p.lookahead) 8 |||
  field (BitVec.ofNat 8 p.threshold) 16 ||| field (bit p.leadInSum) 24 ||| field (bit p.crcStoreOrder) 25 |||
  field (bit p.crcScope) 26 ||| field (bit p.crcRefin) 27 ||| field (bit p.crcRefout) 28

/-- PARAM1 (R60). -/
def State.regParam1 (s : State) : Word := word s.params.cap

/-- PARAM2 (R60). -/
def State.regParam2 (s : State) : Word := field s.params.val.crcPoly 0 ||| field s.params.val.crcInit 16

/-- PARAM3 (R60). -/
def State.regParam3 (s : State) : Word := field s.params.val.crcXorout 0 ||| field s.params.val.histFill 16

/-- Byte j of the subject as the host sees it: 0 from subj_len on (R61). -/
def State.subjectByte (s : State) (j : Nat) : Byte := if j < s.fr.subjLen.toNat then s.readSubj j else 0

/-- SUBJECT[k] (R61). -/
def State.regSubject (s : State) (k : BitVec 6) : Word :=
  field (s.subjectByte (4 * k.toNat)) 0 ||| field (s.subjectByte (4 * k.toNat + 1)) 8 |||
  field (s.subjectByte (4 * k.toNat + 2)) 16 ||| field (s.subjectByte (4 * k.toNat + 3)) 24

/-- The image byte behind IMG_DATA: 0 at or above IMAGE_CAP (40_host_commands.md R127). -/
def State.imgDataByte (s : State) : Byte :=
  if s.host.imgAddr.toNat < s.params.cap then s.readImg s.host.imgAddr.toNat else 0

/-- img_addr ← (img_addr + 1) mod 2^32 (40_host_commands.md R127, R128). -/
def State.advanceImgAddr (s : State) : State :=
  { s with host := { s.host with imgAddr := s.host.imgAddr + 1 } }

/-- The storing half of an IMG_DATA write: nothing is stored at or above IMAGE_CAP (40_host_commands.md R128). -/
def State.storeImgData (s : State) (b : Byte) : State :=
  if s.host.imgAddr.toNat < s.params.cap then s.writeImg s.host.imgAddr.toNat b else s

end Sys2Proof.Machine
end

