-- ==== Sys2Proof/Machine/RegisterReads.lean ====
section
/-!
DEFINITION. Register reads (40_host_commands.md R120, R122, R125, R127): the value the register's rule gives is
returned, and nothing else changes, but for IMG_DATA.
-/

namespace Sys2Proof.Machine

/-- Read of ID (R40). -/
def execRdId (s : State) : Result := .next (s.answer idValue)

/-- Read of VERSION (R40). -/
def execRdVersion (s : State) : Result := .next (s.answer versionValue)

/-- Read of CTRL (R41). -/
def execRdCtrl (s : State) : Result := .next (s.answer s.regCtrl)

/-- Read of CMD (R125). -/
def execRdCmd (s : State) : Result := .next (s.answer 0)

/-- Read of STATUS (R43). -/
def execRdStatus (s : State) : Result := .next (s.answer s.status)

/-- Read of ERR_CODE (R44). -/
def execRdErrCode (s : State) : Result := .next (s.answer s.regErrCode)

/-- Read of ERR_OFFSET (R44). -/
def execRdErrOffset (s : State) : Result := .next (s.answer s.err.offset)

/-- Read of ERR_EXPECTED (R44). -/
def execRdErrExpected (s : State) : Result := .next (s.answer s.err.exp)

/-- Read of ERR_ACTUAL (R44). -/
def execRdErrActual (s : State) : Result := .next (s.answer s.err.act)

/-- Read of CONSUMED (R45). -/
def execRdConsumed (s : State) : Result := .next (s.answer s.fr.consumed)

/-- Read of HEADER (R46). -/
def execRdHeader (s : State) : Result := .next (s.answer s.regHeader)

/-- Read of RESUME_OFFSET (R47). -/
def execRdResumeOffset (s : State) : Result := .next (s.answer s.fr.offsAcc)

/-- Read of LEAD_LO (R48). -/
def execRdLeadLo (s : State) : Result := .next (s.answer s.regLeadLo)

/-- Read of LEAD_HI (R48). -/
def execRdLeadHi (s : State) : Result := .next (s.answer s.regLeadHi)

/-- Read of BLOCK_COUNT (R49). -/
def execRdBlockCount (s : State) : Result := .next (s.answer s.fr.blkCount)

/-- Read of CHECKSUM (R50). -/
def execRdChecksum (s : State) : Result := .next (s.answer s.regChecksum)

/-- Read of IMAGE_LEN (R51). -/
def execRdImageLen (s : State) : Result := .next (s.answer s.fr.imageLen)

/-- Read of IMG_ADDR (R52). -/
def execRdImgAddr (s : State) : Result := .next (s.answer s.host.imgAddr)

/-- Read of IMG_DATA (R53, R127): 0 while busy, with img_addr unchanged; else the byte at img_addr, and img_addr
advances. -/
def execRdImgData (s : State) : Result :=
  if s.busy then .next (s.answer 0)
  else .next (s.advanceImgAddr.answer (field s.imgDataByte 0))

/-- Read of ENV_CRC (R54). -/
def execRdEnvCrc (s : State) : Result := .next (s.answer s.regEnvCrc)

/-- Read of DECLARED_LEN (R55). -/
def execRdDeclaredLen (s : State) : Result := .next (s.answer s.env.declaredLen)

/-- Read of OUT_COUNT (R56). -/
def execRdOutCount (s : State) : Result := .next (s.answer s.dec.outCount)

/-- Read of IRQ_STATUS (R57). -/
def execRdIrqStatus (s : State) : Result := .next (s.answer s.regIrqStatus)

/-- Read of ENGINE_STATE (R58). -/
def execRdEngineState (s : State) : Result := .next (s.answer s.regEngineState)

/-- Read of BITPOS (R59). -/
def execRdBitpos (s : State) : Result := .next (s.answer s.regBitpos)

/-- Read of HIST_WPOS (R59). -/
def execRdHistWpos (s : State) : Result := .next (s.answer s.regHistWpos)

/-- Read of PARAM0 (R60). -/
def execRdParam0 (s : State) : Result := .next (s.answer s.regParam0)

/-- Read of PARAM1 (R60). -/
def execRdParam1 (s : State) : Result := .next (s.answer s.regParam1)

/-- Read of PARAM2 (R60). -/
def execRdParam2 (s : State) : Result := .next (s.answer s.regParam2)

/-- Read of PARAM3 (R60). -/
def execRdParam3 (s : State) : Result := .next (s.answer s.regParam3)

/-- Read of SUBJECT[k] (R61). -/
def execRdSubject (k : BitVec 6) (s : State) : Result := .next (s.answer (s.regSubject k))

/-- Read of a reserved offset, 0x078 to 0x07C (R120). -/
def execRdReserved078 (_k : BitVec 1) (s : State) : Result := .next (s.answer 0)

/-- Read of a reserved offset, 0x080 to 0x0FC (R120). -/
def execRdReserved080 (_k : BitVec 5) (s : State) : Result := .next (s.answer 0)

/-- Read of a reserved offset, 0x200 to 0x3FC (R120). -/
def execRdReserved200 (_k : BitVec 7) (s : State) : Result := .next (s.answer 0)

/-- Read of a reserved offset, 0x400 to 0x7FC (R120). -/
def execRdReserved400 (_k : BitVec 8) (s : State) : Result := .next (s.answer 0)

/-- Read of a reserved offset, 0x800 to 0xFFC (R120). -/
def execRdReserved800 (_k : BitVec 9) (s : State) : Result := .next (s.answer 0)

end Sys2Proof.Machine
end

