-- ==== Sys2Proof/Machine/Commands.lean ====
section
/-!
DEFINITION. The host commands (40_host_commands.md R110 to R119).
-/

namespace Sys2Proof.Machine

/-- NOP (R111). -/
def execNop (s : State) : Result := .next s

/-- RUN (R112). -/
def execRun (s : State) : Result := .next (s.start false .run .frame)

/-- FRAME_ONLY (R113). -/
def execFrameOnly (s : State) : Result := .next (s.start false .frameOnly .frame)

/-- DECODE_ONLY (R114). -/
def execDecodeOnly (s : State) : Result := .next (s.start true .decodeOnly .decode)

/-- ABORT (R116). -/
def execAbort (s : State) : Result :=
  if s.busy then .next (s.raise .aborted s.fr.consumed 0 0) else .next s

/-- CLEAR (R117). -/
def execClear (s : State) : Result := if s.busy then .next s.refuse else .next s.clearPhase

/-- The reserved command code 0x6 (R119). -/
def execCmdReserved6 (s : State) : Result := .next s.refuse

/-- The reserved command code 0x7 (R119). -/
def execCmdReserved7 (s : State) : Result := .next s.refuse

/-- The reserved command code 0x8 (R119). -/
def execCmdReserved8 (s : State) : Result := .next s.refuse

/-- The reserved command code 0x9 (R119). -/
def execCmdReserved9 (s : State) : Result := .next s.refuse

/-- The reserved command code 0xA (R119). -/
def execCmdReservedA (s : State) : Result := .next s.refuse

/-- The reserved command code 0xB (R119). -/
def execCmdReservedB (s : State) : Result := .next s.refuse

/-- The reserved command code 0xC (R119). -/
def execCmdReservedC (s : State) : Result := .next s.refuse

/-- The reserved command code 0xD (R119). -/
def execCmdReservedD (s : State) : Result := .next s.refuse

/-- The reserved command code 0xE (R119). -/
def execCmdReservedE (s : State) : Result := .next s.refuse

/-- The reserved command code 0xF (R119). -/
def execCmdReservedF (s : State) : Result := .next s.refuse

/-- A CMD write: the command whose code is v[3:0] (R110). -/
def runCommand (v : Word) (s : State) : Result :=
  match (v.extractLsb' 0 4).toNat with
  | 0 => execNop s
  | 1 => execRun s
  | 2 => execFrameOnly s
  | 3 => execDecodeOnly s
  | 4 => execAbort s
  | 5 => execClear s
  | 6 => execCmdReserved6 s
  | 7 => execCmdReserved7 s
  | 8 => execCmdReserved8 s
  | 9 => execCmdReserved9 s
  | 10 => execCmdReservedA s
  | 11 => execCmdReservedB s
  | 12 => execCmdReservedC s
  | 13 => execCmdReservedD s
  | 14 => execCmdReservedE s
  | _ => execCmdReservedF s

end Sys2Proof.Machine
end

