-- ==== Sys2Proof/Machine/RegisterWrites.lean ====
section
/-!
DEFINITION. Register writes (40_host_commands.md R110, R120, R121, R123, R124, R126, R128, R129). Writes to read-only
registers and to reserved offsets are ignored.
-/

namespace Sys2Proof.Machine

/-- Write of ID, read-only: ignored (R123). -/
def execWrId (_v : Word) (s : State) : Result := .next s

/-- Write of VERSION, read-only: ignored (R123). -/
def execWrVersion (_v : Word) (s : State) : Result := .next s

/-- Write of CTRL (R41, R121): permitted at any time. -/
def execWrCtrl (v : Word) (s : State) : Result :=
  .next { s with host := { s.host with
    ctrlCrcEn := v.getLsbD 0, ctrlStrict := v.getLsbD 1, ctrlIrqEn := v.getLsbD 2 } }

/-- Write of CMD (R110): the command whose code is v[3:0]. -/
def execWrCmd (v : Word) (s : State) : Result := runCommand v s

/-- Write of STATUS, read-only: ignored (R123). -/
def execWrStatus (_v : Word) (s : State) : Result := .next s

/-- Write of ERR_CODE, read-only: ignored (R123). -/
def execWrErrCode (_v : Word) (s : State) : Result := .next s

/-- Write of ERR_OFFSET, read-only: ignored (R123). -/
def execWrErrOffset (_v : Word) (s : State) : Result := .next s

/-- Write of ERR_EXPECTED, read-only: ignored (R123). -/
def execWrErrExpected (_v : Word) (s : State) : Result := .next s

/-- Write of ERR_ACTUAL, read-only: ignored (R123). -/
def execWrErrActual (_v : Word) (s : State) : Result := .next s

/-- Write of CONSUMED, read-only: ignored (R123). -/
def execWrConsumed (_v : Word) (s : State) : Result := .next s

/-- Write of HEADER, read-only: ignored (R123). -/
def execWrHeader (_v : Word) (s : State) : Result := .next s

/-- Write of RESUME_OFFSET, read-only: ignored (R123). -/
def execWrResumeOffset (_v : Word) (s : State) : Result := .next s

/-- Write of LEAD_LO, read-only: ignored (R123). -/
def execWrLeadLo (_v : Word) (s : State) : Result := .next s

/-- Write of LEAD_HI, read-only: ignored (R123). -/
def execWrLeadHi (_v : Word) (s : State) : Result := .next s

/-- Write of BLOCK_COUNT, read-only: ignored (R123). -/
def execWrBlockCount (_v : Word) (s : State) : Result := .next s

/-- Write of CHECKSUM, read-only: ignored (R123). -/
def execWrChecksum (_v : Word) (s : State) : Result := .next s

/-- Write of IMAGE_LEN (R126): refused while busy or above IMAGE_CAP. -/
def execWrImageLen (v : Word) (s : State) : Result :=
  if s.busy || decide (s.params.cap < v.toNat) then .next s.refuse
  else .next { s with fr := { s.fr with imageLen := v } }

/-- Write of IMG_ADDR (R129): permitted at any time. -/
def execWrImgAddr (v : Word) (s : State) : Result := .next { s with host := { s.host with imgAddr := v } }

/-- Write of IMG_DATA (R128): refused while busy; else v[7:0] is stored at img_addr where that address exists, and
img_addr advances. -/
def execWrImgData (v : Word) (s : State) : Result :=
  if s.busy then .next s.refuse
  else .next (s.storeImgData (v.extractLsb' 0 8)).advanceImgAddr

/-- Write of ENV_CRC, read-only: ignored (R123). -/
def execWrEnvCrc (_v : Word) (s : State) : Result := .next s

/-- Write of DECLARED_LEN, read-only: ignored (R123). -/
def execWrDeclaredLen (_v : Word) (s : State) : Result := .next s

/-- Write of OUT_COUNT, read-only: ignored (R123). -/
def execWrOutCount (_v : Word) (s : State) : Result := .next s

/-- Write of IRQ_STATUS (R124): each bit written as 1 is cleared. -/
def execWrIrqStatus (v : Word) (s : State) : Result :=
  .next { s with host := { s.host with
    irqDone := s.host.irqDone && !v.getLsbD 0, irqErr := s.host.irqErr && !v.getLsbD 1 } }

/-- Write of ENGINE_STATE, read-only: ignored (R123). -/
def execWrEngineState (_v : Word) (s : State) : Result := .next s

/-- Write of BITPOS, read-only: ignored (R123). -/
def execWrBitpos (_v : Word) (s : State) : Result := .next s

/-- Write of HIST_WPOS, read-only: ignored (R123). -/
def execWrHistWpos (_v : Word) (s : State) : Result := .next s

/-- Write of PARAM0, read-only: ignored (R123). -/
def execWrParam0 (_v : Word) (s : State) : Result := .next s

/-- Write of PARAM1, read-only: ignored (R123). -/
def execWrParam1 (_v : Word) (s : State) : Result := .next s

/-- Write of PARAM2, read-only: ignored (R123). -/
def execWrParam2 (_v : Word) (s : State) : Result := .next s

/-- Write of PARAM3, read-only: ignored (R123). -/
def execWrParam3 (_v : Word) (s : State) : Result := .next s

/-- Write of SUBJECT[k], read-only: ignored (R123). -/
def execWrSubject (_k : BitVec 6) (_v : Word) (s : State) : Result := .next s

/-- Write of a reserved offset, 0x078 to 0x07C: ignored (R120). -/
def execWrReserved078 (_k : BitVec 1) (_v : Word) (s : State) : Result := .next s

/-- Write of a reserved offset, 0x080 to 0x0FC: ignored (R120). -/
def execWrReserved080 (_k : BitVec 5) (_v : Word) (s : State) : Result := .next s

/-- Write of a reserved offset, 0x200 to 0x3FC: ignored (R120). -/
def execWrReserved200 (_k : BitVec 7) (_v : Word) (s : State) : Result := .next s

/-- Write of a reserved offset, 0x400 to 0x7FC: ignored (R120). -/
def execWrReserved400 (_k : BitVec 8) (_v : Word) (s : State) : Result := .next s

/-- Write of a reserved offset, 0x800 to 0xFFC: ignored (R120). -/
def execWrReserved800 (_k : BitVec 9) (_v : Word) (s : State) : Result := .next s

end Sys2Proof.Machine
end

