-- ==== Sys2Proof/Machine/Dispatch.lean ====
section
/-!
DEFINITION. The dispatch: one arm per instruction, each one call of its meaning.
-/

namespace Sys2Proof.Machine

def exec (i : Instr) (s : State) : Host.Outcome State Fault Refusal :=
  match i with
  | .nop => Sys2Proof.Machine.execNop s
  | .run => Sys2Proof.Machine.execRun s
  | .frameOnly => Sys2Proof.Machine.execFrameOnly s
  | .decodeOnly => Sys2Proof.Machine.execDecodeOnly s
  | .abort => Sys2Proof.Machine.execAbort s
  | .clear => Sys2Proof.Machine.execClear s
  | .cmdReserved6 => Sys2Proof.Machine.execCmdReserved6 s
  | .cmdReserved7 => Sys2Proof.Machine.execCmdReserved7 s
  | .cmdReserved8 => Sys2Proof.Machine.execCmdReserved8 s
  | .cmdReserved9 => Sys2Proof.Machine.execCmdReserved9 s
  | .cmdReservedA => Sys2Proof.Machine.execCmdReservedA s
  | .cmdReservedB => Sys2Proof.Machine.execCmdReservedB s
  | .cmdReservedC => Sys2Proof.Machine.execCmdReservedC s
  | .cmdReservedD => Sys2Proof.Machine.execCmdReservedD s
  | .cmdReservedE => Sys2Proof.Machine.execCmdReservedE s
  | .cmdReservedF => Sys2Proof.Machine.execCmdReservedF s
  | .rdId => Sys2Proof.Machine.execRdId s
  | .rdVersion => Sys2Proof.Machine.execRdVersion s
  | .rdCtrl => Sys2Proof.Machine.execRdCtrl s
  | .rdCmd => Sys2Proof.Machine.execRdCmd s
  | .rdStatus => Sys2Proof.Machine.execRdStatus s
  | .rdErrCode => Sys2Proof.Machine.execRdErrCode s
  | .rdErrOffset => Sys2Proof.Machine.execRdErrOffset s
  | .rdErrExpected => Sys2Proof.Machine.execRdErrExpected s
  | .rdErrActual => Sys2Proof.Machine.execRdErrActual s
  | .rdConsumed => Sys2Proof.Machine.execRdConsumed s
  | .rdHeader => Sys2Proof.Machine.execRdHeader s
  | .rdResumeOffset => Sys2Proof.Machine.execRdResumeOffset s
  | .rdLeadLo => Sys2Proof.Machine.execRdLeadLo s
  | .rdLeadHi => Sys2Proof.Machine.execRdLeadHi s
  | .rdBlockCount => Sys2Proof.Machine.execRdBlockCount s
  | .rdChecksum => Sys2Proof.Machine.execRdChecksum s
  | .rdImageLen => Sys2Proof.Machine.execRdImageLen s
  | .rdImgAddr => Sys2Proof.Machine.execRdImgAddr s
  | .rdImgData => Sys2Proof.Machine.execRdImgData s
  | .rdEnvCrc => Sys2Proof.Machine.execRdEnvCrc s
  | .rdDeclaredLen => Sys2Proof.Machine.execRdDeclaredLen s
  | .rdOutCount => Sys2Proof.Machine.execRdOutCount s
  | .rdIrqStatus => Sys2Proof.Machine.execRdIrqStatus s
  | .rdEngineState => Sys2Proof.Machine.execRdEngineState s
  | .rdBitpos => Sys2Proof.Machine.execRdBitpos s
  | .rdHistWpos => Sys2Proof.Machine.execRdHistWpos s
  | .rdParam0 => Sys2Proof.Machine.execRdParam0 s
  | .rdParam1 => Sys2Proof.Machine.execRdParam1 s
  | .rdParam2 => Sys2Proof.Machine.execRdParam2 s
  | .rdParam3 => Sys2Proof.Machine.execRdParam3 s
  | .rdSubject k => Sys2Proof.Machine.execRdSubject k s
  | .rdReserved078 k => Sys2Proof.Machine.execRdReserved078 k s
  | .rdReserved080 k => Sys2Proof.Machine.execRdReserved080 k s
  | .rdReserved200 k => Sys2Proof.Machine.execRdReserved200 k s
  | .rdReserved400 k => Sys2Proof.Machine.execRdReserved400 k s
  | .rdReserved800 k => Sys2Proof.Machine.execRdReserved800 k s
  | .wrId v => Sys2Proof.Machine.execWrId v s
  | .wrVersion v => Sys2Proof.Machine.execWrVersion v s
  | .wrCtrl v => Sys2Proof.Machine.execWrCtrl v s
  | .wrCmd v => Sys2Proof.Machine.execWrCmd v s
  | .wrStatus v => Sys2Proof.Machine.execWrStatus v s
  | .wrErrCode v => Sys2Proof.Machine.execWrErrCode v s
  | .wrErrOffset v => Sys2Proof.Machine.execWrErrOffset v s
  | .wrErrExpected v => Sys2Proof.Machine.execWrErrExpected v s
  | .wrErrActual v => Sys2Proof.Machine.execWrErrActual v s
  | .wrConsumed v => Sys2Proof.Machine.execWrConsumed v s
  | .wrHeader v => Sys2Proof.Machine.execWrHeader v s
  | .wrResumeOffset v => Sys2Proof.Machine.execWrResumeOffset v s
  | .wrLeadLo v => Sys2Proof.Machine.execWrLeadLo v s
  | .wrLeadHi v => Sys2Proof.Machine.execWrLeadHi v s
  | .wrBlockCount v => Sys2Proof.Machine.execWrBlockCount v s
  | .wrChecksum v => Sys2Proof.Machine.execWrChecksum v s
  | .wrImageLen v => Sys2Proof.Machine.execWrImageLen v s
  | .wrImgAddr v => Sys2Proof.Machine.execWrImgAddr v s
  | .wrImgData v => Sys2Proof.Machine.execWrImgData v s
  | .wrEnvCrc v => Sys2Proof.Machine.execWrEnvCrc v s
  | .wrDeclaredLen v => Sys2Proof.Machine.execWrDeclaredLen v s
  | .wrOutCount v => Sys2Proof.Machine.execWrOutCount v s
  | .wrIrqStatus v => Sys2Proof.Machine.execWrIrqStatus v s
  | .wrEngineState v => Sys2Proof.Machine.execWrEngineState v s
  | .wrBitpos v => Sys2Proof.Machine.execWrBitpos v s
  | .wrHistWpos v => Sys2Proof.Machine.execWrHistWpos v s
  | .wrParam0 v => Sys2Proof.Machine.execWrParam0 v s
  | .wrParam1 v => Sys2Proof.Machine.execWrParam1 v s
  | .wrParam2 v => Sys2Proof.Machine.execWrParam2 v s
  | .wrParam3 v => Sys2Proof.Machine.execWrParam3 v s
  | .wrSubject k v => Sys2Proof.Machine.execWrSubject k v s
  | .wrReserved078 k v => Sys2Proof.Machine.execWrReserved078 k v s
  | .wrReserved080 k v => Sys2Proof.Machine.execWrReserved080 k v s
  | .wrReserved200 k v => Sys2Proof.Machine.execWrReserved200 k v s
  | .wrReserved400 k v => Sys2Proof.Machine.execWrReserved400 k v s
  | .wrReserved800 k v => Sys2Proof.Machine.execWrReserved800 k v s
  | .soh => Sys2Proof.Machine.execSoh s
  | .errMissingHeaderMarker b => Sys2Proof.Machine.execErrMissingHeaderMarker b s
  | .hlen b => Sys2Proof.Machine.execHlen b s
  | .errMalformedHeaderR1 b => Sys2Proof.Machine.execErrMalformedHeaderR1 b s
  | .subjNul => Sys2Proof.Machine.execSubjNul s
  | .subjByte b => Sys2Proof.Machine.execSubjByte b s
  | .offsNul => Sys2Proof.Machine.execOffsNul s
  | .offsDigit b => Sys2Proof.Machine.execOffsDigit b s
  | .errMalformedHeaderR4 b => Sys2Proof.Machine.execErrMalformedHeaderR4 b s
  | .resStx => Sys2Proof.Machine.execResStx s
  | .errMalformedResumeStx b => Sys2Proof.Machine.execErrMalformedResumeStx b s
  | .resLen => Sys2Proof.Machine.execResLen s
  | .errMalformedResumeLen b => Sys2Proof.Machine.execErrMalformedResumeLen b s
  | .leadByte b => Sys2Proof.Machine.execLeadByte b s
  | .blkStx => Sys2Proof.Machine.execBlkStx s
  | .blkEot => Sys2Proof.Machine.execBlkEot s
  | .errUnexpectedBlockMarker b => Sys2Proof.Machine.execErrUnexpectedBlockMarker b s
  | .blkLen b => Sys2Proof.Machine.execBlkLen b s
  | .errBlockLengthInvalid b => Sys2Proof.Machine.execErrBlockLengthInvalid b s
  | .blkData b => Sys2Proof.Machine.execBlkData b s
  | .csum b => Sys2Proof.Machine.execCsum b s
  | .lit c => Sys2Proof.Machine.execLit c s
  | .matchSym m => Sys2Proof.Machine.execMatchSym m s
  | .pos3 x => Sys2Proof.Machine.execPos3 x s
  | .pos4 x => Sys2Proof.Machine.execPos4 x s
  | .pos5 x => Sys2Proof.Machine.execPos5 x s
  | .pos6 x => Sys2Proof.Machine.execPos6 x s
  | .pos7 x => Sys2Proof.Machine.execPos7 x s
  | .pos8 x => Sys2Proof.Machine.execPos8 x s

end Sys2Proof.Machine
end

