-- ==== Sys2Proof/Machine/Fetch.lean ====
section
/-!
DEFINITION. What a step does around an instruction: the moves of the agents, the reading of the next encoded word
from the host, the input port or the body, and the engine's turn.
-/

namespace Sys2Proof.Machine

/-- Runs the instruction that a word encodes. -/
def runWord (w : Raw) (s : State) : Result :=
  match decode w with
  | .instr i => exec i s
  | .rejected r => .refused (.undecodable r)

/-- The word of a host step (30_encoding.md R98). -/
def HostOp.word : HostOp → Raw
  | .command w => .cmd w
  | .read offset => .mmioRd offset
  | .write offset v => .mmioWr offset v

/-! ### The engine's turn -/

/-- The engine in phase FRAME: the step of the offered byte; TruncatedInput where the input has ended; else a wait
(41_framer.md R140). -/
def frameTurn (s : State) : Result :=
  if s.inp.valid then runWord (.frameByte (frameWord s.ctl.fstate s.inp.data)) s
  else if s.inp.ended then .next (s.raise .truncatedInput s.fr.consumed (field s.ctl.fstate.code 0) 0)
  else .next s

/-- The engine in dstate D_SYM (42_lzhuf.md R191): a wait while the output port is full; the finish test; the length
check at a symbol boundary; else one symbol code and its step. -/
def symTurn (s : State) : Result :=
  if s.out.valid then .next s
  else if s.dec.outCount = s.env.declaredLen then
    if s.host.cfgCrcEn then .next { s with ctl := { s.ctl with phase := .check } } else .next s.complete
  else if s.dec.bitpos = s.bodyBits then
    .next (s.raise .lengthMismatch s.fr.imageLen s.env.declaredLen s.dec.outCount)
  else
    match s.walk with
    | .unsound => .fault .huffmanUnsound
    | .truncated s' => .next s'.raiseTruncatedBitstream
    | .leaf c s' => if c < 512 then runWord (.lzhSym (BitVec.ofNat 9 c)) s' else .fault .huffmanUnsound

/-- The engine in dstate D_POS: the first 8 bits of the position code and the step they select (42_lzhuf.md R193). -/
def posTurn (s : State) : Result :=
  match State.getBits 8 0 s with
  | .error e => .next e.raiseTruncatedBitstream
  | .ok (x, s') => runWord (.lzhPos (BitVec.ofNat 8 x)) s'

/-- The engine's turn. In IDLE, DONE and ERROR no step is enabled, and nothing changes (00_scope.md R17). -/
def engineTurn (s : State) : Result :=
  match s.ctl.phase with
  | .idle | .done | .error => .next s
  | .frame => frameTurn s
  | .check => .next (stepCheck s)
  | .decode =>
    match s.ctl.dstate with
    | .env => .next (stepEnv s)
    | .init => .next (stepInit s)
    | .sym => symTurn s
    | .pos => posTurn s
    | .copy => .next (stepCopy s)

/-! ### The moves of the other agents -/

/-- Push(b) is enabled when in_valid = 0 and in_end = 0, Take when out_valid = 1, the rest always
(10_state.md R33, R34). -/
def Move.enabled : Move → State → Bool
  | .push _, s => !s.inp.valid && !s.inp.ended
  | .take, s => s.out.valid
  | .host _, _ | .endInput, _ | .clearEnd, _ | .engine, _ | .reset, _ => true

/-- Push(b) (10_state.md R33). -/
def State.push (s : State) (b : Byte) : State := { s with inp := { s.inp with valid := true, data := b } }

/-- End, and the clearing of in_end (10_state.md R33). -/
def State.setEnd (s : State) (e : Bool) : State := { s with inp := { s.inp with ended := e } }

/-- Take (10_state.md R34); the consumer keeps the byte. -/
def State.take (s : State) : State :=
  { s with out := { s.out with valid := false }, taken := s.out.data :: s.taken }

/-- An enabled move. -/
def runMove (m : Move) (s : State) : Result :=
  match m with
  | .host op => runWord op.word s
  | .push b => .next (s.push b)
  | .endInput => .next (s.setEnd true)
  | .clearEnd => .next (s.setEnd false)
  | .take => .next s.take
  | .engine => engineTurn s
  | .reset => .next s.resetBlock

/-- One step: the agenda's first move where it is enabled; the engine's turn where the agenda is empty or its first
move must wait (log 2). -/
def stepOnce (s : State) : Result :=
  match s.agenda with
  | [] => engineTurn s
  | m :: rest => if m.enabled s then runMove m { s with agenda := rest } else engineTurn s

/-! ### Placing a word where the next step reads it (log 11) -/

/-- The code of the leaf at node k in the initial tree, left-justified in 16 bits, `acc` holding the bits below: node
2m is reached from node N_CHAR + m by bit 0 and node 2m + 1 by bit 1 (42_lzhuf.md R186). -/
def initialCode (p : Config.Params) : Nat → Nat → Nat → Nat
  | 0, _, acc => acc
  | fuel + 1, k, acc =>
    if p.root ≤ k then acc else initialCode p fuel (p.nChar + k / 2) (32768 * (k % 2) + acc / 2)

/-- The image bytes 6 and 7 hold a body of 16 bits, read from its first bit on. -/
def State.withBody (s : State) (bits : Nat) : State :=
  { s with
    fr := { s.fr with imageLen := 8 }
    dec := { s.dec with bitpos := 0 }
    img := Memory.write none 7 (BitVec.ofNat 8 bits) (Memory.write none 6 (BitVec.ofNat 8 (bits / 256)) s.img) }

/-- The engine has the next turn, in a given position of the decoder. -/
def State.withDecoderTurn (s : State) (d : DState) : State :=
  { s with
    agenda := .engine :: s.agenda
    ctl := { s.ctl with phase := .decode, dstate := d } }

/-- The state with a word placed where the next step fetches it. -/
def State.withWord (s : State) : Raw → State
  | .cmd w => { s with agenda := .host (.command w) :: s.agenda }
  | .mmioRd offset => { s with agenda := .host (.read offset) :: s.agenda }
  | .mmioWr offset v => { s with agenda := .host (.write offset v) :: s.agenda }
  | .frameByte w =>
    match FState.ofCode (w.extractLsb' 8 4) with
    | none => s
    | some f =>
      { s with
        agenda := .engine :: s.agenda
        ctl := { s.ctl with phase := .frame, fstate := f }
        inp := { s.inp with valid := true, data := w.extractLsb' 0 8 } }
  | .lzhSym w =>
    { (s.withDecoderTurn .sym).withBody (initialCode s.params 16 w.toNat 0) with
      out := { s.out with valid := false }
      huff := startHuff s.params
      env := { s.env with declaredLen := s.dec.outCount + 1 } }
  | .lzhPos x => (s.withDecoderTurn .pos).withBody (256 * x.toNat)

end Sys2Proof.Machine
end

