-- ==== Sys2Proof/Machine/Step.lean ====
section
/-!
DEFINITION. The step, and the placing of an opcode-table word where the next step fetches it.
-/

namespace Sys2Proof.Machine

/-- One step of one agent (00_scope.md R17; 20_memory.md R70). -/
def step (s : State) : Result := stepOnce s

/-- `s` with the instruction of an opcode-table word stored where the next step fetches it. -/
def State.withFetchWord (s : State) (nbits w : Nat) : State := s.withWord (rawOfTableWord nbits w)

end Sys2Proof.Machine
end

