-- ==== Sys2Proof/Safety.lean ====
section
/-!
DEFINITION. The terms claims about the machine are stated in: what a step answered, error entry as 60_exceptions.md
R255 writes it, and the invariants of 00_scope.md R63 and 42_lzhuf.md R190 and R197.
-/

namespace Sys2Proof.Machine

open Sys2Proof.Config (Params)

/-- The next state, where there is one. -/
def next? : Result → Option State
  | .next s => some s
  | .fault _ => none
  | .refused _ => none

/-! ### Error entry (60_exceptions.md R255) -/

/-- `s` after the writes of error entry with a code and the three context words. -/
def State.inError (s : State) (code : Byte) (offset exp act : Word) : State :=
  { s with
    ctl := { s.ctl with phase := .error }
    err := { code := code, offset := offset, exp := exp, act := act }
    host := { s.host with irqErr := true } }

/-- `s` after the input byte has been taken (41_framer.md R140). -/
def State.byteTaken (s : State) : State :=
  { s with
    inp := { s.inp with valid := false }
    fr := { s.fr with consumed := s.fr.consumed + 1 } }

/-- `s` after a byte of the header has been taken: one fewer is left (41_framer.md R143, R144). -/
def State.headerByteTaken (s : State) : State :=
  { s.byteTaken with fr := { s.byteTaken.fr with hdrRem := s.fr.hdrRem - 1 } }

/-! ### The shape of the state -/

/-- The memories are in canonical form. -/
def State.memWf (s : State) : Bool :=
  s.img.wf s.params.cap none && s.hist.wf s.params.N (some s.params.val.histFill) && s.subj.wf 256 none

/-- Every register and table lies in the range its rule gives: image_len ≤ IMAGE_CAP (41_framer.md R150), window
indices below N (42_lzhuf.md R200), six lead bytes (10_state.md R27), table sizes (10_state.md R30). -/
def State.inRange (s : State) : Prop :=
  s.fr.imageLen.toNat ≤ s.params.cap ∧ s.dec.wpos.toNat < s.params.N ∧ s.dec.mSrc.toNat < s.params.N ∧
  s.fr.lead.length = 6 ∧ s.huff.freq.length = s.params.T + 1 ∧ s.huff.son.length = s.params.T ∧
  s.huff.prnt.length = s.params.T + s.params.nChar

/-- The shape every step keeps. -/
def State.wellShaped (s : State) : Prop := s.memWf = true ∧ s.inRange

/-! ### Down-counters (00_scope.md R63) -/

/-- hdr_rem, blk_rem and m_len are at least 1 where the next step decrements them, and a lead byte still fits. -/
def State.countersPositive (s : State) : Prop :=
  (s.ctl.phase = .frame →
    ((s.ctl.fstate = .subj ∨ s.ctl.fstate = .offs) → s.fr.hdrRem ≠ 0) ∧
    (s.ctl.fstate = .bdata → s.fr.blkRem ≠ 0) ∧
    (s.ctl.fstate = .lead → s.fr.leadCnt.toNat < 6)) ∧
  (s.ctl.phase = .decode →
    (s.ctl.dstate = .pos → 256 ≤ s.dec.sym.toNat ∧ s.dec.sym.toNat < s.params.nChar) ∧
    (s.ctl.dstate = .copy → s.dec.mLen ≠ 0))

/-! ### The decoder's progress (42_lzhuf.md R197, R198) -/

/-- The run decodes: envelope read, no bit beyond the body, no byte beyond declared_len, wpos as far as the output. -/
def State.decoding (s : State) : Prop :=
  s.env.valid = true ∧ 6 ≤ s.fr.imageLen.toNat ∧ s.dec.bitpos ≤ s.bodyBits ∧
  s.dec.outCount.toNat ≤ s.env.declaredLen.toNat ∧
  s.dec.wpos.toNat = (s.params.N - s.params.F + s.dec.outCount.toNat) % s.params.N

/-- Where a run is, its counters are as R197 and R198 say. -/
def State.progressOk (s : State) : Prop :=
  match s.ctl.phase with
  | .idle | .error => s.dec.outCount.toNat ≤ s.env.declaredLen.toNat
  | .frame => s.dec.outCount = 0 ∧ s.env.valid = false
  | .check => s.env.valid = true ∧ s.dec.outCount = s.env.declaredLen
  | .done => (s.env.valid = true → s.dec.outCount = s.env.declaredLen) ∧ (s.env.valid = false → s.dec.outCount = 0)
  | .decode =>
    match s.ctl.dstate with
    | .env => s.dec.outCount = 0 ∧ s.env.valid = false
    | .init => s.dec.outCount = 0 ∧ s.env.valid = true ∧ s.dec.bitpos = 0 ∧ 6 ≤ s.fr.imageLen.toNat
    | .sym | .pos | .copy => s.decoding

/-! ### The tree (42_lzhuf.md R190) -/

/-- The tables hold a tree: of the sizes of R30, with frequencies that do not fall from node to node, the sentinel,
internal nodes that carry their children's sum and stand above them, one leaf for every symbol, and parents that
match. -/
structure TreeSound (p : Params) (h : Huff) : Prop where
  freq_length : h.freq.length = p.T + 1
  son_length : h.son.length = p.T
  prnt_length : h.prnt.length = p.T + p.nChar
  /-- No node is heavier than the next. -/
  rising : ∀ k f g, k + 1 < p.T → h.freqAt k = some f → h.freqAt (k + 1) = some g → f ≤ g
  /-- Every frequency is at least 1. -/
  positive : ∀ k f, k < p.T → h.freqAt k = some f → 1 ≤ f
  /-- The sentinel. -/
  sentinel : h.freqAt p.T = some 0xFFFF
  /-- The root's frequency is at most MAX_FREQ. -/
  root_bound : ∀ f, h.freqAt p.root = some f → f ≤ Config.MAX_FREQ
  /-- An internal node's children stand below it, are its children in prnt, and add up to it. -/
  internal : ∀ k c, h.sonAt k = some c → c < p.T →
    c + 1 < k ∧ h.prntAt c = some k ∧ h.prntAt (c + 1) = some k ∧
    ∀ f g, h.freqAt c = some f → h.freqAt (c + 1) = some g → h.freqAt k = some (f + g)
  /-- A leaf holds a symbol of the alphabet, whose prnt entry names the leaf. -/
  leaf : ∀ k c, h.sonAt k = some c → p.T ≤ c → c < p.T + p.nChar ∧ h.prntAt c = some k
  /-- Every symbol has a leaf. -/
  symbol : ∀ c, c < p.nChar → ∃ k, h.prntAt (p.T + c) = some k ∧ h.sonAt k = some (p.T + c)
  /-- Every node but the root is a child of its parent. -/
  parent : ∀ k, k < p.root → ∃ q c, h.prntAt k = some q ∧ h.sonAt q = some c ∧ (k = c ∨ k = c + 1)
  /-- The root has no parent. -/
  root_parent : h.prntAt p.root = some 0

/-- `l` is the last node with the frequency of node `a` (42_lzhuf.md R188: `l = last node with freq < k`, k being that
frequency counted once more). -/
def LastOfFrequency (p : Params) (h : Huff) (a l : Nat) : Prop :=
  l < p.T ∧ h.freqAt l = h.freqAt a ∧
    ∀ m f g, l < m → m < p.T → h.freqAt a = some f → h.freqAt m = some g → f < g

/-- The loop of R188 from node `n` up: at each node the place it takes, the last node of its frequency, and on at that
place's parent; it ends with the root. -/
def UpdatePath (p : Params) (h : Huff) : Nat → List (Nat × Nat) → Prop
  | _, [] => False
  | n, (a, l) :: rest =>
    a = n ∧ LastOfFrequency p h a l ∧
      ((rest = [] ∧ l = p.root) ∨ (l ≠ p.root ∧ ∃ q, h.prntAt l = some q ∧ UpdatePath p h q rest))

/-- Where the decoder reads the tables, they hold a tree. -/
def State.treeReady (s : State) : Prop :=
  s.ctl.phase = .decode → s.ctl.dstate = .sym ∨ s.ctl.dstate = .pos ∨ s.ctl.dstate = .copy →
    TreeSound s.params s.huff

/-! ### The engine's turn -/

/-- The next step of `s` is the engine's, taken in `e`: the agenda is empty, gives the engine the turn, or waits. -/
def EngineHasTurn (s e : State) : Prop :=
  (s.agenda = [] ∧ e = s) ∨
  (∃ rest, s.agenda = .engine :: rest ∧ e = { s with agenda := rest }) ∨
  (∃ m rest, s.agenda = m :: rest ∧ m.enabled s = false ∧ e = s)

/-- The host step is a command: a command word, or a write of one to CMD (30_encoding.md R85). -/
def HostOp.issues (op : HostOp) (i : Instr) : Prop :=
  decode op.word = .instr i ∨ ∃ v, decode op.word = .instr (.wrCmd v) ∧ decode (.cmd v) = .instr i

/-! ### The body as numbers (20_memory.md R79; 30_encoding.md R94) -/

/-- The `n` body bits from bit `k` on as a number, the first the most significant. -/
def State.bitsFrom (s : State) (k : Nat) : Nat → Nat
  | 0 => 0
  | n + 1 => 2 * s.bitsFrom k n + (s.bodyBit (k + n)).toNat

/-- The code of the upper six bits of a position: its length and its value (the table of R94). -/
def hiCode (hi : Nat) : Nat × Nat :=
  if hi = 0 then (3, 0)
  else if hi ≤ 3 then (4, hi + 1)
  else if hi ≤ 11 then (5, 0x0A + (hi - 4))
  else if hi ≤ 23 then (6, 0x24 + (hi - 12))
  else if hi ≤ 47 then (7, 0x60 + (hi - 24))
  else (8, 0xF0 + (hi - 48))

/-! ### A framer state without a byte, a position once read -/

/-- In framer state `f`, whose encoding is `code`: with no byte offered, the engine's turn raises TruncatedInput where
the input has ended and changes nothing where it has not (41_framer.md R140). -/
def NoByteAt (f : FState) (code : Word) : Prop :=
  ∀ s e : State, EngineHasTurn s e → e.ctl.phase = .frame → e.ctl.fstate = f → e.inp.valid = false →
    (e.inp.ended = true → step s = .next (e.inError 0x05 e.fr.consumed code 0)) ∧
    (e.inp.ended = false → step s = .next e)

/-- `s` with the body used up and TruncatedBitstream raised (42_lzhuf.md R182, R183). -/
def State.outOfBits (s : State) : State :=
  ({ s with dec := { s.dec with bitpos := s.bodyBits } } : State).inError 0x12 s.fr.imageLen s.env.declaredLen
    s.dec.outCount

/-- `s` after `bits` more body bits have given the position `p`: the window check, then the match's source and length
(42_lzhuf.md R194). -/
def State.afterPosition (s : State) (p bits : Nat) : State :=
  let u : State := { s with dec := { s.dec with bitpos := s.dec.bitpos + bits } }
  if s.params.N ≤ p ∨ (s.host.cfgStrict = true ∧ s.dec.outCount.toNat < p + 1) then
    u.inError 0x11 (BitVec.ofNat 32 (6 + (s.dec.bitpos + bits) / 8))
      (BitVec.ofNat 32 (min s.dec.outCount.toNat s.params.N)) (BitVec.ofNat 32 (p + 1))
  else
    { u with
      dec := { u.dec with
        mSrc := BitVec.ofNat 12 ((s.dec.wpos.toNat + s.params.N - (p + 1)) % s.params.N)
        mLen := BitVec.ofNat 8 (s.dec.sym.toNat - 256 + s.params.val.threshold + 1) }
      ctl := { s.ctl with dstate := .copy } }

/-- `i` reads the rest of a position code whose first 8 bits are `x`: with `extra` more bits the position is
64·hi + lo, lo being the last six bits; with fewer it raises TruncatedBitstream (42_lzhuf.md R193, R194). -/
def ReadsPosition (i : Instr) (hi extra : Nat) (x : Byte) (s : State) : Prop :=
  (s.dec.bitpos + extra ≤ s.bodyBits → exec i s = .next
    (s.afterPosition (64 * hi + (2 ^ extra * x.toNat + s.bitsFrom s.dec.bitpos extra) % 64) extra)) ∧
  (s.dec.bitpos ≤ s.bodyBits → s.bodyBits < s.dec.bitpos + extra → exec i s = .next s.outOfBits)

/-! ### Register accesses and stores -/

/-- Register accesses other than a write of CMD. -/
def isRegisterAccess (i : Instr) : Bool :=
  match encode i with
  | .mmioRd _ => true
  | .mmioWr offset _ => offset != 0x00C
  | _ => false

/-- Instructions that may store to a memory: IMG_DATA writes, subject bytes, block data and literals. -/
def mayStore : Instr → Bool
  | .wrImgData _ | .subjByte _ | .blkData _ | .lit _ => true
  | _ => false

/-! ### Runs of instructions and of steps -/

/-- Instructions executed one after the other; `none` where one does not answer a next state. -/
def execAll : List Instr → State → Option State
  | [], s => some s
  | i :: rest, s =>
    match exec i s with
    | .next s' => execAll rest s'
    | .fault _ => none
    | .refused _ => none

/-- The framer instructions of a data block with a payload (30_encoding.md R87). -/
def blockInstrs (payload : List Byte) : List Instr :=
  .blkStx :: .blkLen (BitVec.ofNat 8 payload.length) :: payload.map .blkData

/-- `n` COPY steps, the consumer taking each byte: after each step the output port is empty again. -/
def copyTaken : Nat → State → State
  | 0, s => s
  | n + 1, s =>
    let t := stepCopy s
    copyTaken n { t with out := { t.out with valid := false } }

end Sys2Proof.Machine
end

