-- ==== Sys2Proof/Certificates/Slice0/Obligations.lean ====
section
/-!
DEFINITION. The statements for the provers, in the order of OBLIGATIONS.json: the step and the fetch, decoding,
register reads, register writes, commands, the framer, the decoder, the whole machine.
-/

open Sys2Proof Sys2Proof.Machine
open Sys2Proof.Config (Params)

/-! ### The step -/

/-- A step runs the instruction that the decoder reads from the next word: the host's command or access at the head
of the agenda, which leaves the agenda; in the engine's turn the offered byte with fstate (R88), the symbol whose code
the walk reads from the body (R191), or the first 8 bits of a position code (R193). The agenda is the model's (log 2). -/
def Obligations.StepRunsDecodedInstruction : Prop :=
  (∀ (s : State) (op : HostOp) (rest : List Move) (i : Instr), s.agenda = .host op :: rest →
    decode op.word = .instr i → step s = exec i { s with agenda := rest }) ∧
  (∀ (s e : State) (i : Instr), EngineHasTurn s e → e.ctl.phase = .frame → e.inp.valid = true →
    decode (.frameByte (frameWord e.ctl.fstate e.inp.data)) = .instr i → step s = exec i e) ∧
  (∀ (s e u : State) (c : Nat) (i : Instr), EngineHasTurn s e → e.ctl.phase = .decode → e.ctl.dstate = .sym →
    e.out.valid = false → e.dec.outCount ≠ e.env.declaredLen → e.dec.bitpos ≠ e.bodyBits →
    e.walk = .leaf c u → c < 512 → decode (.lzhSym (BitVec.ofNat 9 c)) = .instr i → step s = exec i u) ∧
  (∀ (s e : State) (i : Instr), EngineHasTurn s e → e.ctl.phase = .decode → e.ctl.dstate = .pos →
    e.dec.bitpos + 8 ≤ e.bodyBits →
    decode (.lzhPos (BitVec.ofNat 8 (e.bitsFrom e.dec.bitpos 8))) = .instr i →
    step s = exec i { e with dec := { e.dec with bitpos := e.dec.bitpos + 8 } })

/-- Where the engine has no enabled step its turn changes nothing: phases IDLE, DONE and ERROR; FRAME with no byte
and no end; D_SYM, D_COPY and CHECK with a full output port (R17, R290). That the step is then spent is the model's
(log 2). -/
def Obligations.WaitingEngineChangesNothing : Prop :=
  ∀ s e : State, EngineHasTurn s e →
    (e.ctl.phase = .idle ∨ e.ctl.phase = .done ∨ e.ctl.phase = .error ∨
      (e.ctl.phase = .frame ∧ e.inp.valid = false ∧ e.inp.ended = false) ∨
      (e.ctl.phase = .decode ∧ (e.ctl.dstate = .sym ∨ e.ctl.dstate = .copy) ∧ e.out.valid = true) ∨
      (e.ctl.phase = .check ∧ e.out.valid = true)) →
    step s = .next e

/-- The moves of the producer and the consumer (R33, R34): Push where it is enabled, End, the clearing of in_end, Take
where it is enabled. `taken` and the agenda are the model's (log 2, log 4). -/
def Obligations.PortMovesFollowTheirRules : Prop :=
  ∀ (s : State) (rest : List Move),
    (∀ b, s.agenda = .push b :: rest → s.inp.valid = false → s.inp.ended = false →
      step s = .next { s with agenda := rest, inp := { valid := true, data := b, ended := false } }) ∧
    (s.agenda = .endInput :: rest → step s = .next { s with agenda := rest, inp := { s.inp with ended := true } }) ∧
    (s.agenda = .clearEnd :: rest → step s = .next { s with agenda := rest, inp := { s.inp with ended := false } }) ∧
    (s.agenda = .take :: rest → s.out.valid = true →
      step s = .next { s with
        agenda := rest, out := { s.out with valid := false }, taken := s.out.data :: s.taken })

/-- Reset (R280, R62), for every parameter set and from every state: every register has the value of R280's table, IMG
and SUBJ hold free values, and the host would read STATUS, IRQ_STATUS, ID and VERSION as R280 says. Nothing is said of
what R280 leaves unspecified and the model fixes (log 7, 8, 9). -/
def Obligations.ResetLeavesSpecValues : Prop :=
  let afterReset (t : State) : Prop :=
    t.ctl = ⟨.idle, .none, .soh, .env⟩ ∧
    t.fr = { consumed := 0, hdrLen := 0, hdrRem := 0, subjLen := 0, offsAcc := 0, offsNdig := 0, resumed := false,
             lead := [0, 0, 0, 0, 0, 0], leadCnt := 0, blkLen := 0, blkRem := 0, blkCount := 0, sum := 0,
             csumRx := 0, csumExp := 0, imageLen := 0 } ∧
    t.env = ⟨false, 0, 0⟩ ∧ t.dec = ⟨0, 0, 0, 0, 0, 0, 0, 0⟩ ∧ t.err = ⟨0, 0, 0, 0⟩ ∧
    t.host = ⟨false, false, false, false, false, false, false, false, 0⟩ ∧
    t.inp.valid = false ∧ t.inp.ended = false ∧ t.out = ⟨false, 0⟩ ∧
    (∀ a, t.readImg a = Config.unwrittenImg t.epoch a) ∧ (∀ i, t.readSubj i = Config.unwrittenSubj t.epoch i) ∧
    t.irq = false ∧
    exec .rdIrqStatus t = .next { t with rdata := 0 } ∧ exec .rdId t = .next { t with rdata := 0x42324644 } ∧
    exec .rdVersion t = .next { t with rdata := 0x00000001 } ∧ exec .rdStatus t = .next { t with rdata := 0 }
  afterReset State.reset ∧ (∀ p, afterReset (State.resetWith p) ∧ (State.resetWith p).params = p) ∧
  ∀ (s : State) (rest : List Move), s.agenda = .reset :: rest →
    ∃ t, step s = .next t ∧ afterReset t ∧ t.params = s.params

/-! ### Decoding -/

/-- Words written out from the spec's encodings decode to the instructions they stand for: a command, reads and
writes, framer bytes, symbols and position codes. -/
def Obligations.DecoderReadsSpecWords : Prop :=
  decode (.cmd 0x00000001) = .instr .run ∧ decode (.cmd 0x00000014) = .instr .abort ∧
  decode (.mmioRd 0x010) = .instr .rdStatus ∧ decode (.mmioRd 0x104) = .instr (.rdSubject 1) ∧
  decode (.mmioWr 0x008 0x7) = .instr (.wrCtrl 0x7) ∧ decode (.mmioWr 0x048 0xE5) = .instr (.wrImgData 0xE5) ∧
  decode (.frameByte 0x001) = .instr .soh ∧ decode (.frameByte 0x107) = .instr (.hlen 0x07) ∧
  decode (.frameByte 0x930) = .instr (.blkData 0x30) ∧
  decode (.lzhSym 0x041) = .instr (.lit 0x41) ∧ decode (.lzhSym 0x100) = .instr (.matchSym 0) ∧
  decode (.lzhPos 0x57) = .instr (.pos5 0x57) ∧ decode (.lzhPos 0xF0) = .instr (.pos8 0xF0)

/-- The command words (R85): bits 3:0 select the command, bits 31:4 are ignored, and a write to CMD, offset 0x00C, is
such a word. -/
def Obligations.CommandWordBitsSelectCommand : Prop :=
  ∀ (w : Word) (i : Instr),
    (w.toNat % 16, i) ∈ [(0x0, Instr.nop), (0x1, .run), (0x2, .frameOnly), (0x3, .decodeOnly), (0x4, .abort),
      (0x5, .clear), (0x6, .cmdReserved6), (0x7, .cmdReserved7), (0x8, .cmdReserved8), (0x9, .cmdReserved9),
      (0xA, .cmdReservedA), (0xB, .cmdReservedB), (0xC, .cmdReservedC), (0xD, .cmdReservedD),
      (0xE, .cmdReservedE), (0xF, .cmdReservedF)] →
    decode (.cmd w) = .instr i ∧ decode (.mmioWr 0x00C w) = .instr (.wrCmd w) ∧ ∀ s, exec (.wrCmd w) s = exec i s

/-- Register offsets (R81): an access of 32 bits at offset a acts on the word at a & 0xFFC, and at no offset does one
trap: every access decodes to an instruction that completes in every state. -/
def Obligations.AccessesIgnoreLowOffsetBits : Prop :=
  ∀ (a : BitVec 12) (v : Word),
    decode (.mmioRd a) = decode (.mmioRd (a &&& 0xFFC)) ∧ decode (.mmioWr a v) = decode (.mmioWr (a &&& 0xFFC) v) ∧
    (∃ i, decode (.mmioRd a) = .instr i ∧ ∀ s, ∃ t, exec i s = .next t) ∧
    ∃ i, decode (.mmioWr a v) = .instr i ∧ ∀ s, ∃ t, exec i s = .next t

/-- The framer's opcode map (R88). -/
def Obligations.FramerOpcodeMapIsFollowed : Prop :=
  ∀ b : Byte,
    decode (.frameByte (frameWord .soh b)) = .instr (if b = 0x01 then .soh else .errMissingHeaderMarker b) ∧
    decode (.frameByte (frameWord .hlen b)) =
      .instr (if b = 0x00 ∨ b = 0x01 then .errMalformedHeaderR1 b else .hlen b) ∧
    decode (.frameByte (frameWord .subj b)) = .instr (if b = 0x00 then .subjNul else .subjByte b) ∧
    decode (.frameByte (frameWord .offs b)) =
      .instr (if 0x30 ≤ b ∧ b ≤ 0x39 then .offsDigit b else if b = 0x00 then .offsNul
        else .errMalformedHeaderR4 b) ∧
    decode (.frameByte (frameWord .rstx b)) = .instr (if b = 0x02 then .resStx else .errMalformedResumeStx b) ∧
    decode (.frameByte (frameWord .rlen b)) = .instr (if b = 0x06 then .resLen else .errMalformedResumeLen b) ∧
    decode (.frameByte (frameWord .lead b)) = .instr (.leadByte b) ∧
    decode (.frameByte (frameWord .mark b)) =
      .instr (if b = 0x02 then .blkStx else if b = 0x04 then .blkEot else .errUnexpectedBlockMarker b) ∧
    decode (.frameByte (frameWord .blen b)) = .instr (if b ≤ 0xFA then .blkLen b else .errBlockLengthInvalid b) ∧
    decode (.frameByte (frameWord .bdata b)) = .instr (.blkData b) ∧
    decode (.frameByte (frameWord .csum b)) = .instr (.csum b)

/-- Decoding takes back every encoding: every well-formed instruction, with every operand its rows admit. -/
def Obligations.DecodeTakesBackEncode : Prop :=
  ∀ i : Instr, i.wf = true → decode (encode i) = .instr i

/-- What the decoder answers is well-formed, and its encoding differs from the word only in bits the format ignores:
31:4 of a command, 1:0 of an offset (R85, R86). The other formats have none. -/
def Obligations.DecodedWordsReencode : Prop :=
  ∀ (w : Raw) (i : Instr), decode w = .instr i → i.wf = true ∧
    match w, encode i with
    | .cmd a, .cmd b => b = a &&& 0xF
    | .mmioRd a, .mmioRd b => b = a &&& 0xFFC
    | .mmioWr a u, .mmioWr b v => b = a &&& 0xFFC ∧ v = u
    | w, w' => w' = w

/-! ### Register reads -/

/-- Registers that show one value whole (R40, R44, R45, R47, R49, R51, R52, R55, R56, R59, R125): the read returns it
and changes nothing else. -/
def Obligations.WholeRegisterReads : Prop :=
  ∀ s : State,
    exec .rdId s = .next { s with rdata := 0x42324644 } ∧
    exec .rdVersion s = .next { s with rdata := 0x00000001 } ∧
    exec .rdCmd s = .next { s with rdata := 0 } ∧
    exec .rdErrCode s = .next { s with rdata := s.err.code.setWidth 32 } ∧
    exec .rdErrOffset s = .next { s with rdata := s.err.offset } ∧
    exec .rdErrExpected s = .next { s with rdata := s.err.exp } ∧
    exec .rdErrActual s = .next { s with rdata := s.err.act } ∧
    exec .rdConsumed s = .next { s with rdata := s.fr.consumed } ∧
    exec .rdResumeOffset s = .next { s with rdata := s.fr.offsAcc } ∧
    exec .rdBlockCount s = .next { s with rdata := s.fr.blkCount } ∧
    exec .rdImageLen s = .next { s with rdata := s.fr.imageLen } ∧
    exec .rdImgAddr s = .next { s with rdata := s.host.imgAddr } ∧
    exec .rdDeclaredLen s = .next { s with rdata := s.env.declaredLen } ∧
    exec .rdOutCount s = .next { s with rdata := s.dec.outCount } ∧
    exec .rdBitpos s = .next { s with rdata := BitVec.ofNat 32 (s.dec.bitpos % 2 ^ 32) } ∧
    exec .rdHistWpos s = .next { s with rdata := s.dec.wpos.setWidth 32 }

/-- Registers packed from several fields, each field at the bits its rule gives and every other bit 0 (R41, R46, R48,
R50, R54, R57, R58), with the encodings of fstate and dstate (R24, R25). -/
def Obligations.PackedRegisterReads : Prop :=
  ∀ s : State,
    (∃ v : Word, exec .rdCtrl s = .next { s with rdata := v } ∧ v.getLsbD 0 = s.host.ctrlCrcEn ∧
      v.getLsbD 1 = s.host.ctrlStrict ∧ v.getLsbD 2 = s.host.ctrlIrqEn ∧ v.extractLsb' 3 29 = 0) ∧
    (∃ v : Word, exec .rdHeader s = .next { s with rdata := v } ∧ v.extractLsb' 0 8 = s.fr.hdrLen ∧
      v.extractLsb' 8 8 = s.fr.subjLen ∧ v.extractLsb' 16 16 = 0) ∧
    (∃ v : Word, exec .rdLeadLo s = .next { s with rdata := v } ∧ v.extractLsb' 0 8 = s.fr.lead.getD 0 0 ∧
      v.extractLsb' 8 8 = s.fr.lead.getD 1 0 ∧ v.extractLsb' 16 8 = s.fr.lead.getD 2 0 ∧
      v.extractLsb' 24 8 = s.fr.lead.getD 3 0) ∧
    (∃ v : Word, exec .rdLeadHi s = .next { s with rdata := v } ∧ v.extractLsb' 0 8 = s.fr.lead.getD 4 0 ∧
      v.extractLsb' 8 8 = s.fr.lead.getD 5 0 ∧ v.extractLsb' 16 3 = s.fr.leadCnt ∧ v.extractLsb' 19 13 = 0) ∧
    (∃ v : Word, exec .rdChecksum s = .next { s with rdata := v } ∧ v.extractLsb' 0 8 = s.fr.csumRx ∧
      v.extractLsb' 8 8 = s.fr.csumExp ∧ v.extractLsb' 16 8 = s.fr.sum ∧ v.extractLsb' 24 8 = 0) ∧
    (∃ v : Word, exec .rdEnvCrc s = .next { s with rdata := v } ∧ v.extractLsb' 0 16 = s.env.crc ∧
      v.extractLsb' 16 16 = s.dec.crcRes) ∧
    (∃ v : Word, exec .rdIrqStatus s = .next { s with rdata := v } ∧ v.getLsbD 0 = s.host.irqDone ∧
      v.getLsbD 1 = s.host.irqErr ∧ v.extractLsb' 2 30 = 0) ∧
    (∃ v : Word, exec .rdEngineState s = .next { s with rdata := v } ∧ v.extractLsb' 0 4 = s.ctl.fstate.code ∧
      v.extractLsb' 4 3 = s.ctl.dstate.code ∧ v.extractLsb' 7 25 = 0) ∧
    [FState.soh, .hlen, .subj, .offs, .rstx, .rlen, .lead, .mark, .blen, .bdata, .csum].map FState.code =
      [0, 1, 2, 3, 4, 5, 6, 7, 8, 9, 10] ∧
    [DState.env, .init, .sym, .pos, .copy].map DState.code = [0, 1, 2, 3, 4]

/-- STATUS (R43): every field at its bits, with the encodings of phase and mode (R22, R23), and the value after reset. -/
def Obligations.StatusReadShowsEveryField : Prop :=
  ∀ s : State, ∃ v : Word, exec .rdStatus s = .next { s with rdata := v } ∧
    v.extractLsb' 0 3 = s.ctl.phase.code ∧
    (v.getLsbD 3 = true ↔ s.ctl.phase = .frame ∨ s.ctl.phase = .decode ∨ s.ctl.phase = .check) ∧
    (v.getLsbD 4 = true ↔ s.ctl.phase = .done) ∧
    (v.getLsbD 5 = true ↔ s.ctl.phase = .error) ∧
    v.getLsbD 6 = s.fr.resumed ∧ v.getLsbD 7 = s.env.valid ∧ v.getLsbD 8 = s.host.badcmd ∧
    (v.getLsbD 9 = true ↔ s.ctl.phase = .frame ∧ s.inp.valid = false ∧ s.inp.ended = false) ∧
    (v.getLsbD 10 = true ↔
      s.ctl.phase = .decode ∧ (s.ctl.dstate = .sym ∨ s.ctl.dstate = .copy) ∧ s.out.valid = true) ∧
    v.extractLsb' 11 2 = s.ctl.mode.code ∧ v.extractLsb' 13 19 = 0 ∧
    (Phase.idle.code = 0 ∧ Phase.frame.code = 1 ∧ Phase.decode.code = 2 ∧ Phase.check.code = 3 ∧
      Phase.done.code = 4 ∧ Phase.error.code = 5) ∧
    (Mode.none.code = 0 ∧ Mode.run.code = 1 ∧ Mode.frameOnly.code = 2 ∧ Mode.decodeOnly.code = 3) ∧
    exec .rdStatus State.reset = .next { State.reset with rdata := 0x00000000 }

/-- The parameter registers (R60): constants that report the design's parameters, with the values R60 derives for the
defaults. -/
def Obligations.ParameterReadsReportParameters : Prop :=
  ∀ s : State, let p := s.params.val
    (∃ v : Word, exec .rdParam0 s = .next { s with rdata := v } ∧
      2 ^ (v.extractLsb' 0 8).toNat = p.windowSize ∧ (v.extractLsb' 8 8).toNat = p.lookahead ∧
      (v.extractLsb' 16 8).toNat = p.threshold ∧ v.getLsbD 24 = p.leadInSum ∧ v.getLsbD 25 = p.crcStoreOrder ∧
      v.getLsbD 26 = p.crcScope ∧ v.getLsbD 27 = p.crcRefin ∧ v.getLsbD 28 = p.crcRefout ∧
      v.extractLsb' 29 3 = 0 ∧ (p = Config.RawParams.default → v = 0x00023C0B)) ∧
    (∃ v : Word, exec .rdParam1 s = .next { s with rdata := v } ∧ v.toNat = p.imageCap) ∧
    (∃ v : Word, exec .rdParam2 s = .next { s with rdata := v } ∧ v.extractLsb' 0 16 = p.crcPoly ∧
      v.extractLsb' 16 16 = p.crcInit) ∧
    (∃ v : Word, exec .rdParam3 s = .next { s with rdata := v } ∧ v.extractLsb' 0 16 = p.crcXorout ∧
      v.extractLsb' 16 8 = p.histFill ∧ v.extractLsb' 24 8 = 0) ∧
    (p = Config.RawParams.default → exec .rdParam1 s = .next { s with rdata := 0x00100000 } ∧
      exec .rdParam2 s = .next { s with rdata := 0x00001021 } ∧
      exec .rdParam3 s = .next { s with rdata := 0x00200000 })

/-- SUBJECT[k] (R61): byte j reads as SUBJ[j] below subj_len and as 0 from there on, lowest-numbered byte lowest. -/
def Obligations.SubjectReadMasksUnstoredBytes : Prop :=
  ∀ (s : State) (k : BitVec 6),
    ∃ v : Word, exec (.rdSubject k) s = .next { s with rdata := v } ∧
      ∀ j, j < 4 → v.extractLsb' (8 * j) 8 =
        if 4 * k.toNat + j < s.fr.subjLen.toNat then s.readSubj (4 * k.toNat + j) else 0

/-- A read of IMG_DATA (R127). A byte never written since reset is a free value (log 5). -/
def Obligations.ImgDataReadFollowsItsRule : Prop :=
  ∀ s : State,
    (s.busy = true → exec .rdImgData s = .next { s with rdata := 0 }) ∧
    (s.busy = false → exec .rdImgData s = .next { s with
      rdata := if s.host.imgAddr.toNat < s.params.cap then (s.readImg s.host.imgAddr.toNat).setWidth 32 else 0
      host := { s.host with imgAddr := s.host.imgAddr + 1 } })

/-! ### Register writes -/

/-- Writes to read-only registers are ignored and do not set badcmd (R123). A read of a reserved offset returns 0, a
write to one is ignored, and neither sets badcmd (R120). -/
def Obligations.ReadOnlyAndReservedAccesses : Prop :=
  ∀ (s : State) (v : Word) (k : BitVec 6) (k1 : BitVec 1) (k5 : BitVec 5) (k7 : BitVec 7) (k8 : BitVec 8)
    (k9 : BitVec 9),
    exec (.wrId v) s = .next s ∧ exec (.wrVersion v) s = .next s ∧ exec (.wrStatus v) s = .next s ∧
    exec (.wrErrCode v) s = .next s ∧ exec (.wrErrOffset v) s = .next s ∧ exec (.wrErrExpected v) s = .next s ∧
    exec (.wrErrActual v) s = .next s ∧ exec (.wrConsumed v) s = .next s ∧ exec (.wrHeader v) s = .next s ∧
    exec (.wrResumeOffset v) s = .next s ∧ exec (.wrLeadLo v) s = .next s ∧ exec (.wrLeadHi v) s = .next s ∧
    exec (.wrBlockCount v) s = .next s ∧ exec (.wrChecksum v) s = .next s ∧ exec (.wrEnvCrc v) s = .next s ∧
    exec (.wrDeclaredLen v) s = .next s ∧ exec (.wrOutCount v) s = .next s ∧ exec (.wrEngineState v) s = .next s ∧
    exec (.wrBitpos v) s = .next s ∧ exec (.wrHistWpos v) s = .next s ∧ exec (.wrParam0 v) s = .next s ∧
    exec (.wrParam1 v) s = .next s ∧ exec (.wrParam2 v) s = .next s ∧ exec (.wrParam3 v) s = .next s ∧
    exec (.wrSubject k v) s = .next s ∧
    exec (.rdReserved078 k1) s = .next { s with rdata := 0 } ∧ exec (.rdReserved080 k5) s = .next { s with rdata := 0 } ∧
    exec (.rdReserved200 k7) s = .next { s with rdata := 0 } ∧ exec (.rdReserved400 k8) s = .next { s with rdata := 0 } ∧
    exec (.rdReserved800 k9) s = .next { s with rdata := 0 } ∧
    exec (.wrReserved078 k1 v) s = .next s ∧ exec (.wrReserved080 k5 v) s = .next s ∧
    exec (.wrReserved200 k7 v) s = .next s ∧ exec (.wrReserved400 k8 v) s = .next s ∧
    exec (.wrReserved800 k9 v) s = .next s

/-- Writes of CTRL (R121, the latched copies untouched, the interrupt line following at once), IRQ_STATUS (R124) and
IMG_ADDR (R129), at any time, and of IMAGE_LEN (R126), refused while busy or above IMAGE_CAP. -/
def Obligations.ControlWritesFollowTheirRules : Prop :=
  ∀ (s : State) (v : Word),
    (∃ t, exec (.wrCtrl v) s = .next t ∧
      t = { s with host := { s.host with
        ctrlCrcEn := v.getLsbD 0, ctrlStrict := v.getLsbD 1, ctrlIrqEn := v.getLsbD 2 } } ∧
      t.irq = (v.getLsbD 2 && (s.host.irqDone || s.host.irqErr))) ∧
    exec (.wrIrqStatus v) s = .next { s with host := { s.host with
      irqDone := if v.getLsbD 0 = true then false else s.host.irqDone
      irqErr := if v.getLsbD 1 = true then false else s.host.irqErr } } ∧
    exec (.wrImgAddr v) s = .next { s with host := { s.host with imgAddr := v } } ∧
    (s.busy = true ∨ s.params.cap < v.toNat →
      exec (.wrImageLen v) s = .next { s with host := { s.host with badcmd := true } }) ∧
    (s.busy = false → v.toNat ≤ s.params.cap →
      exec (.wrImageLen v) s = .next { s with fr := { s.fr with imageLen := v } })

/-- A write of IMG_DATA (R128): refused while busy; else the byte v[7:0] is stored at img_addr where that address
exists, every other byte reads as before, and img_addr advances. -/
def Obligations.ImgDataWriteStoresOneByte : Prop :=
  ∀ (s : State) (v : Word),
    (s.busy = true → exec (.wrImgData v) s = .next { s with host := { s.host with badcmd := true } }) ∧
    (s.busy = false → ∃ t, exec (.wrImgData v) s = .next t ∧
      t = { s with img := t.img, host := { s.host with imgAddr := s.host.imgAddr + 1 } } ∧
      (s.host.imgAddr.toNat < s.params.cap → t.readImg s.host.imgAddr.toNat = v.extractLsb' 0 8) ∧
      (∀ a, a ≠ s.host.imgAddr.toNat ∨ s.params.cap ≤ s.host.imgAddr.toNat → t.readImg a = s.readImg a))

/-- A register access other than a write of CMD always completes, raises nothing and moves no phase (R251, R84). -/
def Obligations.AccessesNeverRaise : Prop :=
  ∀ (i : Instr) (s : State), isRegisterAccess i = true →
    ∃ t, exec i s = .next t ∧ t.ctl = s.ctl ∧ t.err = s.err ∧
      (t.host.irqErr = true → s.host.irqErr = true) ∧ (t.host.irqDone = true → s.host.irqDone = true)

/-! ### Commands -/

/-- A write of v to CMD executes the command whose code is v[3:0] (R110), and completes. -/
def Obligations.CmdWriteExecutesCommand : Prop :=
  ∀ (v : Word) (s : State) (i : Instr), decode (.cmd v) = .instr i →
    ∃ t, exec i s = .next t ∧ exec (.wrCmd v) s = .next t

/-- NOP does nothing (R111); the reserved commands set badcmd and do nothing else, busy or not (R119). ABORT (R116)
enters the error Aborted while busy and else does nothing; CLEAR (R117) is refused while busy, else it returns to IDLE
and clears badcmd. -/
def Obligations.NopAbortClearAndReservedCommands : Prop :=
  ∀ s : State,
    let refused : State := { s with host := { s.host with badcmd := true } }
    exec .nop s = .next s ∧ exec .cmdReserved6 s = .next refused ∧ exec .cmdReserved7 s = .next refused ∧
    exec .cmdReserved8 s = .next refused ∧ exec .cmdReserved9 s = .next refused ∧
    exec .cmdReservedA s = .next refused ∧ exec .cmdReservedB s = .next refused ∧
    exec .cmdReservedC s = .next refused ∧ exec .cmdReservedD s = .next refused ∧
    exec .cmdReservedE s = .next refused ∧ exec .cmdReservedF s = .next refused ∧
    (s.busy = true → exec .abort s = .next (s.inError 0x30 s.fr.consumed 0 0) ∧ exec .clear s = .next refused) ∧
    (s.busy = false → exec .abort s = .next s ∧
      exec .clear s = .next { s with
        ctl := { s.ctl with phase := .idle }, host := { s.host with badcmd := false } })

/-- The start commands (R112 to R115): refused while busy; else every message register is cleared, image_len kept by
DECODE_ONLY alone, the configuration latched, and the run begins. -/
def Obligations.StartCommandsClearAndStart : Prop :=
  ∀ s : State,
    let refused : State := { s with host := { s.host with badcmd := true } }
    let started (m : Mode) (p : Phase) (imageLen : Word) : State :=
      { s with
        ctl := { phase := p, mode := m, fstate := .soh, dstate := .env }
        fr := { consumed := 0, hdrLen := 0, hdrRem := 0, subjLen := 0, offsAcc := 0, offsNdig := 0, resumed := false,
                lead := [0, 0, 0, 0, 0, 0], leadCnt := 0, blkLen := 0, blkRem := 0, blkCount := 0, sum := 0,
                csumRx := 0, csumExp := 0, imageLen := imageLen }
        env := { valid := false, crc := 0, declaredLen := 0 }
        dec := { wpos := s.dec.wpos, bitpos := 0, outCount := 0, sym := 0, mLen := 0, mSrc := 0, crcCalc := 0,
                 crcRes := 0 }
        err := { code := 0, offset := 0, exp := 0, act := 0 }
        host := { s.host with cfgCrcEn := s.host.ctrlCrcEn, cfgStrict := s.host.ctrlStrict } }
    (s.busy = true → exec .run s = .next refused ∧ exec .frameOnly s = .next refused ∧
      exec .decodeOnly s = .next refused) ∧
    (s.busy = false → exec .run s = .next (started .run .frame 0) ∧
      exec .frameOnly s = .next (started .frameOnly .frame 0) ∧
      exec .decodeOnly s = .next (started .decodeOnly .decode s.fr.imageLen))

/-! ### The framer -/

/-- TruncatedInput and the hold (R140): with no byte offered, the engine's turn in phase FRAME raises TruncatedInput
with fstate as its expected word where the input has ended, and changes nothing where it has not. -/
def Obligations.StarvedFramerTruncatesOrHolds : Prop :=
  NoByteAt .soh 0 ∧ NoByteAt .hlen 1 ∧ NoByteAt .subj 2 ∧ NoByteAt .offs 3 ∧ NoByteAt .rstx 4 ∧ NoByteAt .rlen 5 ∧
  NoByteAt .lead 6 ∧ NoByteAt .mark 7 ∧ NoByteAt .blen 8 ∧ NoByteAt .bdata 9 ∧ NoByteAt .csum 10

/-- The marker steps (R141, R145, R146, R148): the byte is taken and fstate moves on, or the step's error is raised
with the byte and its offset. Nothing else changes. -/
def Obligations.MarkerStepsFollowTheirRules : Prop :=
  ∀ (s : State) (b : Byte),
    let goto (f : FState) : State := { s.byteTaken with ctl := { s.ctl with fstate := f } }
    let error (code : Byte) (expected : Word) : State :=
      s.byteTaken.inError code s.fr.consumed expected (b.setWidth 32)
    exec .soh s = .next (goto .hlen) ∧
    (b ≠ 0x01 → exec (.errMissingHeaderMarker b) s = .next (error 0x01 0x01)) ∧
    exec .resStx s = .next (goto .rlen) ∧
    (b ≠ 0x02 → exec (.errMalformedResumeStx b) s = .next (error 0x02 0x02)) ∧
    exec .resLen s = .next { goto .lead with fr := { s.byteTaken.fr with leadCnt := 0 } } ∧
    (b ≠ 0x06 → exec (.errMalformedResumeLen b) s = .next (error 0x02 0x06)) ∧
    exec .blkStx s = .next (goto .blen) ∧
    exec .blkEot s = .next (goto .csum) ∧
    (b ≠ 0x02 → b ≠ 0x04 → exec (.errUnexpectedBlockMarker b) s = .next (error 0x03 0x00000402))

/-- The header length (R142): hdr_len is written before the test, hdr_rem after it. The block length (R149): accepted up
to 250, counted, and followed by data unless it is 0. -/
def Obligations.LengthByteSteps : Prop :=
  (∀ (s : State) (b : Byte), 2 ≤ b.toNat → exec (.hlen b) s = .next { s.byteTaken with
    fr := { s.byteTaken.fr with hdrLen := b, hdrRem := b }, ctl := { s.ctl with fstate := .subj } }) ∧
  (∀ (s : State) (b : Byte), b.toNat < 2 → exec (.errMalformedHeaderR1 b) s = .next
    (({ s.byteTaken with fr := { s.byteTaken.fr with hdrLen := b } } : State).inError 0x06 s.fr.consumed 1
      (b.setWidth 32))) ∧
  (∀ (s : State) (b : Byte), b.toNat ≤ 250 → exec (.blkLen b) s = .next { s.byteTaken with
    fr := { s.byteTaken.fr with blkLen := b, blkRem := b, blkCount := s.fr.blkCount + 1 }
    ctl := { s.ctl with fstate := if b = 0 then .mark else .bdata } }) ∧
  (∀ (s : State) (b : Byte), 250 < b.toNat → exec (.errBlockLengthInvalid b) s = .next
    (s.byteTaken.inError 0x07 s.fr.consumed 250 (b.setWidth 32)))

/-- The subject (R143): a byte is stored at subj_len and every other subject byte reads as before; the NUL ends the
subject; either raises its reason where it is the last byte of the header. hdr_rem is at least 1 (R63). -/
def Obligations.SubjectSteps : Prop :=
  ∀ s : State,
    (∀ b : Byte, b ≠ 0x00 → 1 ≤ s.fr.hdrRem.toNat → ∃ t, exec (.subjByte b) s = .next t ∧
      (let u : State := { s.headerByteTaken with
        subj := t.subj, fr := { s.headerByteTaken.fr with subjLen := s.fr.subjLen + 1 } }
       t = if s.fr.hdrRem.toNat = 1 then u.inError 0x06 s.fr.consumed 2 (b.setWidth 32) else u) ∧
      t.readSubj s.fr.subjLen.toNat = b ∧ ∀ j, j ≠ s.fr.subjLen.toNat → t.readSubj j = s.readSubj j) ∧
    (2 ≤ s.fr.hdrRem.toNat →
      exec .subjNul s = .next { s.headerByteTaken with ctl := { s.ctl with fstate := .offs } }) ∧
    (s.fr.hdrRem.toNat = 1 → exec .subjNul s = .next (s.headerByteTaken.inError 0x06 s.fr.consumed 3 0x00))

/-- A digit of the offset (R144): the value is exact; above 2^32 − 1 it raises reason 5 and is not stored, reason 6
where the header ends with it. hdr_rem is at least 1 (R63). -/
def Obligations.OffsetDigitStep : Prop :=
  ∀ (s : State) (b : Byte), 0x30 ≤ b.toNat → b.toNat ≤ 0x39 → 1 ≤ s.fr.hdrRem.toNat →
    let v := s.fr.offsAcc.toNat * 10 + (b.toNat - 0x30)
    let u : State := { s.headerByteTaken with fr := { s.headerByteTaken.fr with
      offsAcc := BitVec.ofNat 32 v, offsNdig := BitVec.ofNat 8 (min (s.fr.offsNdig.toNat + 1) 255) } }
    (0xFFFFFFFF < v →
      exec (.offsDigit b) s = .next (s.headerByteTaken.inError 0x06 s.fr.consumed 5 (b.setWidth 32))) ∧
    (v ≤ 0xFFFFFFFF → 2 ≤ s.fr.hdrRem.toNat → exec (.offsDigit b) s = .next u) ∧
    (v ≤ 0xFFFFFFFF → s.fr.hdrRem.toNat = 1 →
      exec (.offsDigit b) s = .next (u.inError 0x06 s.fr.consumed 6 (b.setWidth 32)))

/-- The end of the offset and its illegal bytes (R144): reason 7 for an empty offset, reason 8 with the number of
header bytes left over, reason 4 for a byte that is neither digit nor NUL; else the message is resumed exactly where
the offset is not 0. -/
def Obligations.OffsetEndSteps : Prop :=
  ∀ s : State, 1 ≤ s.fr.hdrRem.toNat →
    let ended (resumed : Bool) (f : FState) : State := { s.headerByteTaken with
      fr := { s.headerByteTaken.fr with resumed := resumed }, ctl := { s.ctl with fstate := f } }
    (s.fr.offsNdig = 0 → exec .offsNul s = .next (s.headerByteTaken.inError 0x06 s.fr.consumed 7 0x00)) ∧
    (s.fr.offsNdig ≠ 0 → 2 ≤ s.fr.hdrRem.toNat → exec .offsNul s = .next
      (s.headerByteTaken.inError 0x06 s.fr.consumed 8 ((s.fr.hdrRem - 1).setWidth 32))) ∧
    (s.fr.offsNdig ≠ 0 → s.fr.hdrRem.toNat = 1 → s.fr.offsAcc = 0 → exec .offsNul s = .next (ended false .mark)) ∧
    (s.fr.offsNdig ≠ 0 → s.fr.hdrRem.toNat = 1 → s.fr.offsAcc ≠ 0 → exec .offsNul s = .next (ended true .rstx)) ∧
    (∀ b : Byte, b ≠ 0x00 → ¬(0x30 ≤ b.toNat ∧ b.toNat ≤ 0x39) → exec (.errMalformedHeaderR4 b) s = .next
      (s.headerByteTaken.inError 0x06 s.fr.consumed 4 (b.setWidth 32)))

/-- A lead byte (R147): stored at lead_cnt, the other lead bytes kept, summed only under LEAD_IN_SUM; the sixth ends
the resume block. -/
def Obligations.LeadByteStep : Prop :=
  ∀ (s : State) (b : Byte), s.fr.lead.length = 6 → s.fr.leadCnt.toNat < 6 →
    ∃ t, exec (.leadByte b) s = .next t ∧
      t = { s.byteTaken with
        fr := { s.byteTaken.fr with
          lead := t.fr.lead
          leadCnt := s.fr.leadCnt + 1
          sum := if s.params.val.leadInSum = true then s.fr.sum + b else s.fr.sum }
        ctl := { s.ctl with fstate := if s.fr.leadCnt.toNat = 5 then .mark else s.ctl.fstate } } ∧
      t.fr.lead.length = 6 ∧
      ∀ k, k < 6 → t.fr.lead.getD k 0 = if k = s.fr.leadCnt.toNat then b else s.fr.lead.getD k 0

/-- A payload byte (R150): ImageOverflow where the image is full, with image_len + 1 as its actual word, and with some
actual word where that is 2^32 (log 24); else it is stored at image_len, every other image byte reads as before, and it
is counted and summed; the last of the block leads to the next marker. blk_rem is at least 1 (R63). -/
def Obligations.BlockDataStep : Prop :=
  ∀ (s : State) (b : Byte), 1 ≤ s.fr.blkRem.toNat →
    let overflow (actual : Word) : State :=
      s.byteTaken.inError 0x08 s.fr.consumed (BitVec.ofNat 32 s.params.cap) actual
    (s.fr.imageLen.toNat = s.params.cap → s.params.cap < 0xFFFFFFFF →
      exec (.blkData b) s = .next (overflow (s.fr.imageLen + 1))) ∧
    (s.fr.imageLen.toNat = s.params.cap → s.params.cap = 0xFFFFFFFF →
      ∃ w, exec (.blkData b) s = .next (overflow w)) ∧
    (s.fr.imageLen.toNat < s.params.cap → ∃ t, exec (.blkData b) s = .next t ∧
      t = { s.byteTaken with
        img := t.img
        fr := { s.byteTaken.fr with
          imageLen := s.fr.imageLen + 1, sum := s.fr.sum + b, blkRem := s.fr.blkRem - 1 }
        ctl := { s.ctl with fstate := if s.fr.blkRem.toNat = 1 then .mark else s.ctl.fstate } } ∧
      t.readImg s.fr.imageLen.toNat = b ∧ ∀ a, a ≠ s.fr.imageLen.toNat → t.readImg a = s.readImg a)

/-- The checksum byte (R151): both checksums are recorded; a mismatch raises ChecksumMismatch; a RUN that is not
resumed goes on to decode, every other run completes (R236). -/
def Obligations.ChecksumStep : Prop :=
  ∀ (s : State) (b : Byte),
    let expected : Byte := BitVec.ofNat 8 (256 - s.fr.sum.toNat)
    let u : State := { s.byteTaken with fr := { s.byteTaken.fr with csumRx := b, csumExp := expected } }
    (b ≠ expected →
      exec (.csum b) s = .next (u.inError 0x04 s.fr.consumed (expected.setWidth 32) (b.setWidth 32))) ∧
    (b = expected → s.ctl.mode = .run → s.fr.resumed = false →
      exec (.csum b) s = .next { u with ctl := { s.ctl with phase := .decode, dstate := .env } }) ∧
    (b = expected → s.ctl.mode ≠ .run ∨ s.fr.resumed = true → exec (.csum b) s = .next { u with
      ctl := { s.ctl with phase := .done }, host := { s.host with irqDone := true } })

/-- Every framer step consumes exactly one byte, or none where none is offered, and no other engine step touches the
input port (R152); a framer error that names a byte has CONSUMED = ERR_OFFSET + 1, TruncatedInput CONSUMED =
ERR_OFFSET (R257). -/
def Obligations.FramerConsumesOneByte : Prop :=
  ∀ s e t : State, EngineHasTurn s e → step s = .next t →
    (e.ctl.phase = .frame → e.inp.valid = true →
      t.fr.consumed = e.fr.consumed + 1 ∧ t.inp = { e.inp with valid := false } ∧
      (t.ctl.phase = .error → t.fr.consumed = t.err.offset + 1)) ∧
    (e.ctl.phase = .frame → e.inp.valid = false →
      t.fr.consumed = e.fr.consumed ∧ t.inp = e.inp ∧ (t.ctl.phase = .error → t.fr.consumed = t.err.offset)) ∧
    (e.ctl.phase ≠ .frame → t.fr.consumed = e.fr.consumed ∧ t.inp = e.inp)

/-- Changing a single payload byte makes the checksum that fitted raise ChecksumMismatch (R153). -/
def Obligations.ChecksumDetectsChangedByte : Prop :=
  ∀ (s t t' : State) (before after : List Byte) (b b' c : Byte), b ≠ b' →
    s.fr.imageLen.toNat + before.length + after.length + 1 ≤ s.params.cap →
    execAll ((before ++ b :: after).map .blkData) s = some t →
    execAll ((before ++ b' :: after).map .blkData) s = some t' →
    (∃ u, exec (.csum c) t = .next u ∧ u.ctl.phase ≠ .error) →
    ∃ u, exec (.csum c) t' = .next u ∧ u.ctl.phase = .error ∧ u.err.code = 0x04 ∧
      u.err.act = c.setWidth 32 ∧ u.err.exp ≠ u.err.act

/-- The image depends only on the payload bytes in order, not on how they are split into blocks (R155): two
sequences of blocks with the same payload, run from the same state, leave the same image, length, sum and position,
the payload in order in the image, and every byte outside it as before. -/
def Obligations.BlockSplitDoesNotMatter : Prop :=
  ∀ (s : State) (xs ys : List (List Byte)), s.ctl.fstate = .mark →
    (∀ x ∈ xs, x.length ≤ 250) → (∀ y ∈ ys, y.length ≤ 250) → xs.flatten = ys.flatten →
    s.fr.imageLen.toNat + xs.flatten.length ≤ s.params.cap →
    ∃ t u, execAll (xs.flatMap blockInstrs) s = some t ∧ execAll (ys.flatMap blockInstrs) s = some u ∧
      t.img = u.img ∧ t.fr.imageLen = u.fr.imageLen ∧ t.fr.sum = u.fr.sum ∧ t.ctl = s.ctl ∧ u.ctl = s.ctl ∧
      t.fr.imageLen.toNat = s.fr.imageLen.toNat + xs.flatten.length ∧
      t.fr.consumed = s.fr.consumed + BitVec.ofNat 32 (2 * xs.length + xs.flatten.length) ∧
      (∀ k, k < xs.flatten.length → t.readImg (s.fr.imageLen.toNat + k) = xs.flatten.getD k 0) ∧
      ∀ a, a < s.fr.imageLen.toNat ∨ s.fr.imageLen.toNat + xs.flatten.length ≤ a → t.readImg a = s.readImg a

/-! ### The decoder -/

/-- The engine's turn in D_ENV (R180, R78). -/
def Obligations.EnvelopeStep : Prop :=
  ∀ s e : State, EngineHasTurn s e → e.ctl.phase = .decode → e.ctl.dstate = .env →
    (e.fr.imageLen.toNat < 6 → step s = .next (e.inError 0x09 e.fr.imageLen 6 e.fr.imageLen)) ∧
    (6 ≤ e.fr.imageLen.toNat → step s = .next { e with
      env := {
        valid := true
        crc := if e.params.val.crcStoreOrder = true then e.readImg 0 ++ e.readImg 1 else e.readImg 1 ++ e.readImg 0
        declaredLen := e.readImg 5 ++ e.readImg 4 ++ e.readImg 3 ++ e.readImg 2 }
      dec := { e.dec with bitpos := 0 }
      ctl := { e.ctl with dstate := .init } })

/-- The engine's turn in D_INIT (R185, R186): the window is filled, wpos and the running CRC start, and the tables hold
the initial tree, entry by entry. -/
def Obligations.InitStepFillsWindowAndTree : Prop :=
  ∀ s e : State, EngineHasTurn s e → e.ctl.phase = .decode → e.ctl.dstate = .init →
    ∃ t, step s = .next t ∧
      t = { e with
        hist := t.hist
        huff := t.huff
        dec := { e.dec with
          wpos := BitVec.ofNat 12 (e.params.N - e.params.F), crcCalc := e.params.val.crcInit }
        ctl := { e.ctl with dstate := .sym } } ∧
      (∀ i : HistIndex, i.toNat < e.params.N → t.readHist i = e.params.val.histFill) ∧
      (∀ c, c < e.params.nChar → t.huff.freqAt c = some 1 ∧ t.huff.sonAt c = some (c + e.params.T) ∧
        t.huff.prntAt (c + e.params.T) = some c) ∧
      (∀ m, m < e.params.nChar - 1 → ∃ f g, t.huff.freqAt (2 * m) = some f ∧ t.huff.freqAt (2 * m + 1) = some g ∧
        t.huff.freqAt (e.params.nChar + m) = some (f + g) ∧ t.huff.sonAt (e.params.nChar + m) = some (2 * m) ∧
        t.huff.prntAt (2 * m) = some (e.params.nChar + m) ∧
        t.huff.prntAt (2 * m + 1) = some (e.params.nChar + m)) ∧
      t.huff.freqAt e.params.T = some 0xFFFF ∧ t.huff.prntAt e.params.root = some 0

/-- The symbol codes of the initial tree with the default parameters (R93): the 9 bits of 396 + c for a symbol up to
115, the 8 bits of c − 116 for one from 116 to 313. -/
def Obligations.InitialSymbolCodes : Prop :=
  ∀ (s : State) (c : Nat), s.params = Config.Params.default → s.huff = startHuff s.params →
    (c ≤ 115 → s.dec.bitpos + 9 ≤ s.bodyBits → s.bitsFrom s.dec.bitpos 9 = 396 + c →
      s.walk = .leaf c { s with dec := { s.dec with bitpos := s.dec.bitpos + 9 } }) ∧
    (116 ≤ c → c ≤ 313 → s.dec.bitpos + 8 ≤ s.bodyBits → s.bitsFrom s.dec.bitpos 8 = c - 116 →
      s.walk = .leaf c { s with dec := { s.dec with bitpos := s.dec.bitpos + 8 } })

/-- The engine's turn in D_SYM where no symbol is decoded (R191): the finish test, first, leads to CHECK or completes;
LengthMismatch at a symbol boundary with the body used up; TruncatedBitstream where the body ends inside a code. -/
def Obligations.SymbolBoundaryTests : Prop :=
  ∀ s e : State, EngineHasTurn s e → e.ctl.phase = .decode → e.ctl.dstate = .sym → e.out.valid = false →
    (e.dec.outCount = e.env.declaredLen → e.host.cfgCrcEn = true →
      step s = .next { e with ctl := { e.ctl with phase := .check } }) ∧
    (e.dec.outCount = e.env.declaredLen → e.host.cfgCrcEn = false →
      step s = .next { e with ctl := { e.ctl with phase := .done }, host := { e.host with irqDone := true } }) ∧
    (e.dec.outCount ≠ e.env.declaredLen → e.dec.bitpos = e.bodyBits → step s = .next
      (e.inError 0x20 e.fr.imageLen e.env.declaredLen e.dec.outCount)) ∧
    (∀ u, e.dec.outCount ≠ e.env.declaredLen → e.dec.bitpos < e.bodyBits → e.walk = .truncated u →
      step s = .next e.outOfBits)

/-- A literal (R191, R192): the tree is updated, the byte is emitted, stored at wpos and counted, and enters the
running CRC; every other window byte reads as before. A match symbol (R191, R189): the tree is updated before any
position bit is read, and the position follows. -/
def Obligations.SymbolSteps : Prop :=
  (∀ (s : State) (m : Byte) (h : Huff), s.huff.update s.params (256 + m.toNat) = some h →
    exec (.matchSym m) s = .next { s with
      huff := h
      dec := { s.dec with sym := BitVec.ofNat 16 (256 + m.toNat) }
      ctl := { s.ctl with dstate := .pos } }) ∧
  ∀ (s : State) (c : Byte) (h : Huff), s.huff.update s.params c.toNat = some h →
    ∃ t, exec (.lit c) s = .next t ∧
      t = { s with
        huff := h
        hist := t.hist
        out := { valid := true, data := c }
        dec := { s.dec with
          sym := c.setWidth 16
          wpos := BitVec.ofNat 12 ((s.dec.wpos.toNat + 1) % s.params.N)
          outCount := s.dec.outCount + 1
          crcCalc := crcByte s.params s.dec.crcCalc c } } ∧
      t.readHist s.dec.wpos = c ∧ ∀ i, i ≠ s.dec.wpos → t.readHist i = s.readHist i

/-- On a tree every symbol of the alphabet is executed (R190, R191); a match symbol outside it, which no tree holds,
stops (log 10). -/
def Obligations.TreeExecutesEverySymbol : Prop :=
  ∀ s : State, TreeSound s.params s.huff →
    (∀ c : Byte, ∃ t, exec (.lit c) s = .next t) ∧
    (∀ m : Byte, 256 + m.toNat < s.params.nChar → ∃ t, exec (.matchSym m) s = .next t) ∧
    (∀ m : Byte, s.params.nChar ≤ 256 + m.toNat → exec (.matchSym m) s = .fault .huffmanUnsound)

/-- The position steps (R193, R194): each class of first bytes gives its hi and reads its number of further bits. -/
def Obligations.PositionStepsFollowTheTable : Prop :=
  ∀ (s : State) (x : Byte),
    (x.toNat ≤ 0x1F → ReadsPosition (.pos3 x) 0 1 x s) ∧
    (0x20 ≤ x.toNat → x.toNat ≤ 0x4F → ReadsPosition (.pos4 x) (1 + (x.toNat - 0x20) / 16) 2 x s) ∧
    (0x50 ≤ x.toNat → x.toNat ≤ 0x8F → ReadsPosition (.pos5 x) (4 + (x.toNat - 0x50) / 8) 3 x s) ∧
    (0x90 ≤ x.toNat → x.toNat ≤ 0xBF → ReadsPosition (.pos6 x) (12 + (x.toNat - 0x90) / 4) 4 x s) ∧
    (0xC0 ≤ x.toNat → x.toNat ≤ 0xEF → ReadsPosition (.pos7 x) (24 + (x.toNat - 0xC0) / 2) 5 x s) ∧
    (0xF0 ≤ x.toNat → ReadsPosition (.pos8 x) (48 + (x.toNat - 0xF0)) 6 x s)

/-- The position code decodes to the position it encodes (R94, R193, R194): for every hi and lo below 64, where the
body holds hi's code and then lo, the engine's turn in D_POS reads exactly those bits and takes p = 64·hi + lo; with
fewer than 8 bits left it raises TruncatedBitstream. -/
def Obligations.PositionCodesRoundTrip : Prop :=
  ∀ s e : State, EngineHasTurn s e → e.ctl.phase = .decode → e.ctl.dstate = .pos →
    (∀ hi lo, hi < 64 → lo < 64 → e.dec.bitpos + (hiCode hi).1 + 6 ≤ e.bodyBits →
      e.bitsFrom e.dec.bitpos ((hiCode hi).1 + 6) = 64 * (hiCode hi).2 + lo →
      step s = .next (e.afterPosition (64 * hi + lo) ((hiCode hi).1 + 6))) ∧
    (e.dec.bitpos ≤ e.bodyBits → e.bodyBits < e.dec.bitpos + 8 → step s = .next e.outOfBits)

/-- The engine's turn in D_COPY (R195): a match is cut at declared_len; else one byte is read, emitted and stored at
wpos, every other window byte reading as before; the last one ends the match. m_len is at least 1 (R63). -/
def Obligations.CopyStep : Prop :=
  ∀ s e : State, EngineHasTurn s e → e.ctl.phase = .decode → e.ctl.dstate = .copy → e.out.valid = false →
    (e.dec.outCount = e.env.declaredLen → step s = .next { e with
      dec := { e.dec with mLen := 0 }, ctl := { e.ctl with dstate := .sym } }) ∧
    (e.dec.outCount ≠ e.env.declaredLen → 1 ≤ e.dec.mLen.toNat → ∃ t, step s = .next t ∧
      t = { e with
        hist := t.hist
        out := { valid := true, data := e.readHist e.dec.mSrc }
        dec := { e.dec with
          wpos := BitVec.ofNat 12 ((e.dec.wpos.toNat + 1) % e.params.N)
          mSrc := BitVec.ofNat 12 ((e.dec.mSrc.toNat + 1) % e.params.N)
          outCount := e.dec.outCount + 1
          crcCalc := crcByte e.params e.dec.crcCalc (e.readHist e.dec.mSrc)
          mLen := e.dec.mLen - 1 }
        ctl := { e.ctl with dstate := if e.dec.mLen.toNat = 1 then .sym else .copy } } ∧
      t.readHist e.dec.wpos = e.readHist e.dec.mSrc ∧
      ∀ i, i ≠ e.dec.wpos → t.readHist i = e.readHist i)

/-- The copy repeats the window (R195, R292): n COPY steps at distance d, the consumer taking every byte, store the d
bytes before wpos over and over, also where d is shorter than n or is the whole window. -/
def Obligations.CopyRepeatsTheWindow : Prop :=
  ∀ (s : State) (n d : Nat), s.out.valid = false → s.dec.wpos.toNat < s.params.N → 1 ≤ d → d ≤ s.params.N →
    s.dec.mSrc.toNat = (s.dec.wpos.toNat + s.params.N - d) % s.params.N → n ≤ s.dec.mLen.toNat → n ≤ s.params.N →
    s.dec.outCount.toNat + n ≤ s.env.declaredLen.toNat →
    (copyTaken n s).dec.outCount.toNat = s.dec.outCount.toNat + n ∧
    (copyTaken n s).dec.wpos.toNat = (s.dec.wpos.toNat + n) % s.params.N ∧
    ∀ j, j < n →
      (copyTaken n s).readHist (BitVec.ofNat 12 ((s.dec.wpos.toNat + j) % s.params.N)) =
        s.readHist (BitVec.ofNat 12 ((s.dec.wpos.toNat + s.params.N - d + j % d) % s.params.N))

/-- The engine's turn in phase CHECK (R234): the computed CRC is recorded and compared with the envelope's. -/
def Obligations.CrcCheckStep : Prop :=
  ∀ s e : State, EngineHasTurn s e → e.ctl.phase = .check → e.out.valid = false →
    let imageBytes := (List.range (e.fr.imageLen.toNat - 2)).map (fun k => e.readImg (k + 2))
    let crc := crcFinal e.params
      (if e.params.val.crcScope = true then imageBytes.foldl (crcByte e.params) e.params.val.crcInit
       else e.dec.crcCalc)
    let u : State := { e with dec := { e.dec with crcRes := crc } }
    (crc ≠ e.env.crc → step s = .next (u.inError 0x21 0 (e.env.crc.setWidth 32) (crc.setWidth 32))) ∧
    (crc = e.env.crc → step s = .next { u with
      ctl := { e.ctl with phase := .done }, host := { e.host with irqDone := true } })

/-- The CRC unit gives the check values of R233 for the bytes "123456789" under its four parameter sets. -/
def Obligations.CrcCheckValues : Prop :=
  ∀ p : Params,
    let crc := crcFinal p
      (([0x31, 0x32, 0x33, 0x34, 0x35, 0x36, 0x37, 0x38, 0x39] : List Byte).foldl (crcByte p) p.val.crcInit)
    let set (poly init : Half) (reflected : Bool) : Prop :=
      p.val.crcPoly = poly ∧ p.val.crcInit = init ∧ p.val.crcRefin = reflected ∧ p.val.crcRefout = reflected ∧
      p.val.crcXorout = 0x0000
    (set 0x1021 0x0000 false → crc = 0x31C3) ∧ (set 0x8005 0x0000 true → crc = 0xBB3D) ∧
    (set 0x1021 0xFFFF false → crc = 0x29B1) ∧ (set 0x1021 0x0000 true → crc = 0x2189)

/-! ### The whole machine -/

/-- An instruction that stores to no memory leaves every byte of the three memories as it was (R65, R66, R67). -/
def Obligations.OtherInstructionsKeepMemory : Prop :=
  ∀ (i : Instr) (s t : State), mayStore i = false → exec i s = .next t →
    (∀ a, t.readImg a = s.readImg a) ∧ (∀ k, t.readHist k = s.readHist k) ∧ ∀ j, t.readSubj j = s.readSubj j

/-- The sticky bits (R260, R262): a step that clears irq_done or irq_err is a reset or a write of IRQ_STATUS; one that
clears badcmd is a reset or the command CLEAR while not busy. -/
def Obligations.StickyBitsAreClearedByTheHostAlone : Prop :=
  ∀ s t : State, step s = .next t →
    ((s.host.irqDone = true ∧ t.host.irqDone = false) ∨ (s.host.irqErr = true ∧ t.host.irqErr = false) →
      ∃ m rest, s.agenda = m :: rest ∧
        (m = .reset ∨ ∃ op v, m = .host op ∧ decode op.word = .instr (.wrIrqStatus v))) ∧
    (s.host.badcmd = true → t.host.badcmd = false →
      ∃ m rest, s.agenda = m :: rest ∧
        (m = .reset ∨ (s.busy = false ∧ ∃ op, m = .host op ∧ op.issues .clear)))

/-- The configuration of a run is latched (R288): while the block stays busy no step changes it. -/
def Obligations.ConfigurationIsLatchedForTheRun : Prop :=
  ∀ s t : State, step s = .next t → s.busy = true → t.busy = true →
    t.host.cfgCrcEn = s.host.cfgCrcEn ∧ t.host.cfgStrict = s.host.cfgStrict

/-- No error nests and none returns by itself (R258, R259): from ERROR every step but a reset stays in ERROR with the
same error registers, or is the host's command CLEAR, to IDLE with the same error registers, or its RUN or FRAME_ONLY,
to FRAME, or its DECODE_ONLY, to DECODE, with the error registers cleared. -/
def Obligations.ErrorLastsUntilTheHostActs : Prop :=
  ∀ s t : State, step s = .next t → s.ctl.phase = .error → (∀ rest, s.agenda ≠ .reset :: rest) →
    (t.ctl.phase = .error ∧ t.err = s.err) ∨
    ∃ op rest, s.agenda = .host op :: rest ∧
      ((op.issues .clear ∧ t.ctl.phase = .idle ∧ t.err = s.err) ∨
       ((op.issues .run ∨ op.issues .frameOnly) ∧ t.ctl.phase = .frame ∧ t.err = ⟨0, 0, 0, 0⟩) ∨
       (op.issues .decodeOnly ∧ t.ctl.phase = .decode ∧ t.err = ⟨0, 0, 0, 0⟩))

/-- Completion (R230, R236): a step into DONE is the engine's, sets irq_done, and is one of three: the checksum byte of
a run that only frames, the finish test without the CRC check, the CRC check where the CRC matches; the last two with
the output port empty. -/
def Obligations.DoneIsReachedByCompletionAlone : Prop :=
  ∀ s t : State, step s = .next t → s.ctl.phase ≠ .done → t.ctl.phase = .done →
    (∃ e, EngineHasTurn s e) ∧ t.host.irqDone = true ∧
    ((s.ctl.phase = .frame ∧ s.ctl.fstate = .csum ∧ s.inp.valid = true ∧ s.inp.data = -s.fr.sum ∧
        (s.ctl.mode ≠ .run ∨ s.fr.resumed = true)) ∨
     (s.ctl.phase = .decode ∧ s.ctl.dstate = .sym ∧ s.out.valid = false ∧ s.host.cfgCrcEn = false ∧
        s.dec.outCount = s.env.declaredLen) ∨
     (s.ctl.phase = .check ∧ s.out.valid = false ∧ t.dec.crcRes = s.env.crc))

/-- Right after reset, whatever the parameters, the invariants below hold. -/
def Obligations.ResetMeetsTheInvariants : Prop :=
  ∀ p : Params, (State.resetWith p).wellShaped ∧ (State.resetWith p).countersPositive ∧
    (State.resetWith p).progressOk ∧ (State.resetWith p).treeReady

/-- Every step keeps the shape of the state: memories in canonical form within their address spaces (R65 to R67),
image_len ≤ IMAGE_CAP (R63), window indices below N (R63, R200), six lead bytes (R27), tables of the sizes of R30. -/
def Obligations.StepKeepsWellShaped : Prop :=
  ∀ s t : State, s.wellShaped → step s = .next t → t.wellShaped

/-- Every step keeps the down-counters positive where the next step decrements them (R63). -/
def Obligations.StepKeepsCountersPositive : Prop :=
  ∀ s t : State, s.wellShaped → s.countersPositive → step s = .next t → t.countersPositive

/-- Every step keeps the decoder's progress (R197, R198): out_count ≤ declared_len, wpos as far as the output, no bit
read beyond the body, and exactly declared_len bytes in a decoding run that is DONE. -/
def Obligations.StepKeepsProgress : Prop :=
  ∀ s t : State, s.progressOk → step s = .next t → t.progressOk

/-- An update of a tree counts one occurrence of a symbol and leaves a tree (R188, R190). Below MAX_FREQ the root is one
heavier and so is the symbol's leaf, and no other leaf changes its frequency. The update takes the path from the leaf up:
each node on it changes places with the last node of its frequency, son entries being exchanged, and the count is added
there; the path goes on at that place's parent. No other son or freq entry changes, and where no node changes places no
son or prnt entry does. With the root at MAX_FREQ the update is that of the
halved tables. -/
def Obligations.UpdateKeepsTreeSound : Prop :=
  ∀ (p : Params) (h : Huff) (c : Nat) (f : Nat), TreeSound p h → c < p.nChar → h.freqAt p.root = some f →
    (f = Config.MAX_FREQ → ∃ u, reconst p h = some u ∧ h.update p c = u.update p c) ∧
    (f ≠ Config.MAX_FREQ →
      ∃ h' n path, h.update p c = some h' ∧ TreeSound p h' ∧ h'.freqAt p.root = some (f + 1) ∧
        (∀ d k k' g, d < p.nChar → h.prntAt (p.T + d) = some k → h.freqAt k = some g →
          h'.prntAt (p.T + d) = some k' → h'.freqAt k' = some (if d = c then g + 1 else g)) ∧
        h.prntAt (p.T + c) = some n ∧ UpdatePath p h n path ∧
        (∀ a l, (a, l) ∈ path → h'.sonAt a = h.sonAt l ∧ h'.sonAt l = h.sonAt a ∧
          ∀ g, h.freqAt l = some g → h'.freqAt l = some (g + 1)) ∧
        (∀ k, (∀ a l, (a, l) ∈ path → k ≠ a ∧ k ≠ l) → h'.sonAt k = h.sonAt k) ∧
        (∀ k, (∀ a l, (a, l) ∈ path → k ≠ l) → h'.freqAt k = h.freqAt k) ∧
        ((∀ a l, (a, l) ∈ path → a = l) → h'.son = h.son ∧ h'.prnt = h.prnt))

/-- Halving a tree leaves a tree (R187, R190): every symbol's frequency f becomes (f + 1) div 2, freq[T] is not
touched, and the root is below MAX_FREQ again. Its order is R187's: the leaves keep the order they had as nodes, a leaf
stands before an internal node of its frequency, and the internal nodes' first children rise with the node index, in the
order the nodes are built. -/
def Obligations.HalvingKeepsTreeSound : Prop :=
  ∀ (p : Params) (h : Huff), TreeSound p h →
    ∃ h', reconst p h = some h' ∧ TreeSound p h' ∧
      (∀ f, h'.freqAt p.root = some f → f < Config.MAX_FREQ) ∧
      (∀ d k k' g, d < p.nChar → h.prntAt (p.T + d) = some k → h.freqAt k = some g →
        h'.prntAt (p.T + d) = some k' → h'.freqAt k' = some ((g + 1) / 2)) ∧
      (∀ c d k m k' m', c < p.nChar → d < p.nChar → h.prntAt (p.T + c) = some k → h.prntAt (p.T + d) = some m →
        h'.prntAt (p.T + c) = some k' → h'.prntAt (p.T + d) = some m' → k < m → k' < m') ∧
      (∀ k m x y, h'.sonAt k = some x → p.T ≤ x → h'.sonAt m = some y → y < p.T →
        h'.freqAt k = h'.freqAt m → k < m) ∧
      (∀ k m x y, k < m → h'.sonAt k = some x → x < p.T → h'.sonAt m = some y → y < p.T → x < y)

/-- Every step keeps a tree in the tables where the decoder reads them (R185, R190). -/
def Obligations.StepKeepsTreeReady : Prop :=
  ∀ s t : State, s.treeReady → step s = .next t → t.treeReady

/-- The machine never stops (R95, R252): where the decoder reads the tables they hold a tree, every step answers a next
state, for every bit string of the body. -/
def Obligations.EveryStepAnswersANextState : Prop :=
  ∀ s : State, s.treeReady → ∃ t, step s = .next t
end

