-- ==== Sys2Proof/Laws/State.lean ====
section
/-!
SUPPORT. One lemma per field and shared update of the state, so that no proof unfolds a record update.
-/

namespace Sys2Proof.Machine

/-! ### raise -/

@[simp] theorem State.raise_ctl (s : State) (e : ErrCode) (o x a : Word) : (s.raise e o x a).ctl = { s.ctl with phase := .error } := rfl
@[simp] theorem State.raise_fr (s : State) (e : ErrCode) (o x a : Word) : (s.raise e o x a).fr = s.fr := rfl
@[simp] theorem State.raise_env (s : State) (e : ErrCode) (o x a : Word) : (s.raise e o x a).env = s.env := rfl
@[simp] theorem State.raise_dec (s : State) (e : ErrCode) (o x a : Word) : (s.raise e o x a).dec = s.dec := rfl
@[simp] theorem State.raise_huff (s : State) (e : ErrCode) (o x a : Word) : (s.raise e o x a).huff = s.huff := rfl
@[simp] theorem State.raise_err (s : State) (e : ErrCode) (o x a : Word) : (s.raise e o x a).err = ⟨e.code, o, x, a⟩ := rfl
@[simp] theorem State.raise_host (s : State) (e : ErrCode) (o x a : Word) : (s.raise e o x a).host = { s.host with irqErr := true } := rfl
@[simp] theorem State.raise_inp (s : State) (e : ErrCode) (o x a : Word) : (s.raise e o x a).inp = s.inp := rfl
@[simp] theorem State.raise_out (s : State) (e : ErrCode) (o x a : Word) : (s.raise e o x a).out = s.out := rfl
@[simp] theorem State.raise_img (s : State) (e : ErrCode) (o x a : Word) : (s.raise e o x a).img = s.img := rfl
@[simp] theorem State.raise_hist (s : State) (e : ErrCode) (o x a : Word) : (s.raise e o x a).hist = s.hist := rfl
@[simp] theorem State.raise_subj (s : State) (e : ErrCode) (o x a : Word) : (s.raise e o x a).subj = s.subj := rfl
@[simp] theorem State.raise_params (s : State) (e : ErrCode) (o x a : Word) : (s.raise e o x a).params = s.params := rfl
@[simp] theorem State.raise_agenda (s : State) (e : ErrCode) (o x a : Word) : (s.raise e o x a).agenda = s.agenda := rfl
@[simp] theorem State.raise_rdata (s : State) (e : ErrCode) (o x a : Word) : (s.raise e o x a).rdata = s.rdata := rfl
@[simp] theorem State.raise_taken (s : State) (e : ErrCode) (o x a : Word) : (s.raise e o x a).taken = s.taken := rfl
@[simp] theorem State.raise_epoch (s : State) (e : ErrCode) (o x a : Word) : (s.raise e o x a).epoch = s.epoch := rfl

/-! ### raiseByte -/

@[simp] theorem State.raiseByte_ctl (s : State) (e : ErrCode) (x : Word) (b : Byte) : (s.raiseByte e x b).ctl = { s.ctl with phase := .error } := rfl
@[simp] theorem State.raiseByte_fr (s : State) (e : ErrCode) (x : Word) (b : Byte) : (s.raiseByte e x b).fr = s.fr := rfl
@[simp] theorem State.raiseByte_env (s : State) (e : ErrCode) (x : Word) (b : Byte) : (s.raiseByte e x b).env = s.env := rfl
@[simp] theorem State.raiseByte_dec (s : State) (e : ErrCode) (x : Word) (b : Byte) : (s.raiseByte e x b).dec = s.dec := rfl
@[simp] theorem State.raiseByte_huff (s : State) (e : ErrCode) (x : Word) (b : Byte) : (s.raiseByte e x b).huff = s.huff := rfl
@[simp] theorem State.raiseByte_err (s : State) (e : ErrCode) (x : Word) (b : Byte) : (s.raiseByte e x b).err = ⟨e.code, s.fr.consumed - 1, x, b.setWidth 32⟩ := rfl
@[simp] theorem State.raiseByte_host (s : State) (e : ErrCode) (x : Word) (b : Byte) : (s.raiseByte e x b).host = { s.host with irqErr := true } := rfl
@[simp] theorem State.raiseByte_inp (s : State) (e : ErrCode) (x : Word) (b : Byte) : (s.raiseByte e x b).inp = s.inp := rfl
@[simp] theorem State.raiseByte_out (s : State) (e : ErrCode) (x : Word) (b : Byte) : (s.raiseByte e x b).out = s.out := rfl
@[simp] theorem State.raiseByte_img (s : State) (e : ErrCode) (x : Word) (b : Byte) : (s.raiseByte e x b).img = s.img := rfl
@[simp] theorem State.raiseByte_hist (s : State) (e : ErrCode) (x : Word) (b : Byte) : (s.raiseByte e x b).hist = s.hist := rfl
@[simp] theorem State.raiseByte_subj (s : State) (e : ErrCode) (x : Word) (b : Byte) : (s.raiseByte e x b).subj = s.subj := rfl
@[simp] theorem State.raiseByte_params (s : State) (e : ErrCode) (x : Word) (b : Byte) : (s.raiseByte e x b).params = s.params := rfl
@[simp] theorem State.raiseByte_agenda (s : State) (e : ErrCode) (x : Word) (b : Byte) : (s.raiseByte e x b).agenda = s.agenda := rfl
@[simp] theorem State.raiseByte_rdata (s : State) (e : ErrCode) (x : Word) (b : Byte) : (s.raiseByte e x b).rdata = s.rdata := rfl
@[simp] theorem State.raiseByte_taken (s : State) (e : ErrCode) (x : Word) (b : Byte) : (s.raiseByte e x b).taken = s.taken := rfl
@[simp] theorem State.raiseByte_epoch (s : State) (e : ErrCode) (x : Word) (b : Byte) : (s.raiseByte e x b).epoch = s.epoch := rfl

/-! ### raiseHeader -/

@[simp] theorem State.raiseHeader_ctl (s : State) (x : Word) (b : Byte) : (s.raiseHeader x b).ctl = { s.ctl with phase := .error } := rfl
@[simp] theorem State.raiseHeader_fr (s : State) (x : Word) (b : Byte) : (s.raiseHeader x b).fr = s.fr := rfl
@[simp] theorem State.raiseHeader_env (s : State) (x : Word) (b : Byte) : (s.raiseHeader x b).env = s.env := rfl
@[simp] theorem State.raiseHeader_dec (s : State) (x : Word) (b : Byte) : (s.raiseHeader x b).dec = s.dec := rfl
@[simp] theorem State.raiseHeader_huff (s : State) (x : Word) (b : Byte) : (s.raiseHeader x b).huff = s.huff := rfl
@[simp] theorem State.raiseHeader_err (s : State) (x : Word) (b : Byte) : (s.raiseHeader x b).err = ⟨0x06, s.fr.consumed - 1, x, b.setWidth 32⟩ := rfl
@[simp] theorem State.raiseHeader_host (s : State) (x : Word) (b : Byte) : (s.raiseHeader x b).host = { s.host with irqErr := true } := rfl
@[simp] theorem State.raiseHeader_inp (s : State) (x : Word) (b : Byte) : (s.raiseHeader x b).inp = s.inp := rfl
@[simp] theorem State.raiseHeader_out (s : State) (x : Word) (b : Byte) : (s.raiseHeader x b).out = s.out := rfl
@[simp] theorem State.raiseHeader_img (s : State) (x : Word) (b : Byte) : (s.raiseHeader x b).img = s.img := rfl
@[simp] theorem State.raiseHeader_hist (s : State) (x : Word) (b : Byte) : (s.raiseHeader x b).hist = s.hist := rfl
@[simp] theorem State.raiseHeader_subj (s : State) (x : Word) (b : Byte) : (s.raiseHeader x b).subj = s.subj := rfl
@[simp] theorem State.raiseHeader_params (s : State) (x : Word) (b : Byte) : (s.raiseHeader x b).params = s.params := rfl
@[simp] theorem State.raiseHeader_agenda (s : State) (x : Word) (b : Byte) : (s.raiseHeader x b).agenda = s.agenda := rfl
@[simp] theorem State.raiseHeader_rdata (s : State) (x : Word) (b : Byte) : (s.raiseHeader x b).rdata = s.rdata := rfl
@[simp] theorem State.raiseHeader_taken (s : State) (x : Word) (b : Byte) : (s.raiseHeader x b).taken = s.taken := rfl
@[simp] theorem State.raiseHeader_epoch (s : State) (x : Word) (b : Byte) : (s.raiseHeader x b).epoch = s.epoch := rfl

/-! ### raiseTruncatedBitstream -/

@[simp] theorem State.raiseTruncatedBitstream_ctl (s : State) : (s.raiseTruncatedBitstream).ctl = { s.ctl with phase := .error } := rfl
@[simp] theorem State.raiseTruncatedBitstream_fr (s : State) : (s.raiseTruncatedBitstream).fr = s.fr := rfl
@[simp] theorem State.raiseTruncatedBitstream_env (s : State) : (s.raiseTruncatedBitstream).env = s.env := rfl
@[simp] theorem State.raiseTruncatedBitstream_dec (s : State) : (s.raiseTruncatedBitstream).dec = s.dec := rfl
@[simp] theorem State.raiseTruncatedBitstream_huff (s : State) : (s.raiseTruncatedBitstream).huff = s.huff := rfl
@[simp] theorem State.raiseTruncatedBitstream_err (s : State) : (s.raiseTruncatedBitstream).err = ⟨0x12, s.fr.imageLen, s.env.declaredLen, s.dec.outCount⟩ := rfl
@[simp] theorem State.raiseTruncatedBitstream_host (s : State) : (s.raiseTruncatedBitstream).host = { s.host with irqErr := true } := rfl
@[simp] theorem State.raiseTruncatedBitstream_inp (s : State) : (s.raiseTruncatedBitstream).inp = s.inp := rfl
@[simp] theorem State.raiseTruncatedBitstream_out (s : State) : (s.raiseTruncatedBitstream).out = s.out := rfl
@[simp] theorem State.raiseTruncatedBitstream_img (s : State) : (s.raiseTruncatedBitstream).img = s.img := rfl
@[simp] theorem State.raiseTruncatedBitstream_hist (s : State) : (s.raiseTruncatedBitstream).hist = s.hist := rfl
@[simp] theorem State.raiseTruncatedBitstream_subj (s : State) : (s.raiseTruncatedBitstream).subj = s.subj := rfl
@[simp] theorem State.raiseTruncatedBitstream_params (s : State) : (s.raiseTruncatedBitstream).params = s.params := rfl
@[simp] theorem State.raiseTruncatedBitstream_agenda (s : State) : (s.raiseTruncatedBitstream).agenda = s.agenda := rfl
@[simp] theorem State.raiseTruncatedBitstream_rdata (s : State) : (s.raiseTruncatedBitstream).rdata = s.rdata := rfl
@[simp] theorem State.raiseTruncatedBitstream_taken (s : State) : (s.raiseTruncatedBitstream).taken = s.taken := rfl
@[simp] theorem State.raiseTruncatedBitstream_epoch (s : State) : (s.raiseTruncatedBitstream).epoch = s.epoch := rfl

/-! ### clearPhase -/

@[simp] theorem State.clearPhase_ctl (s : State) : (s.clearPhase).ctl = { s.ctl with phase := .idle } := rfl
@[simp] theorem State.clearPhase_fr (s : State) : (s.clearPhase).fr = s.fr := rfl
@[simp] theorem State.clearPhase_env (s : State) : (s.clearPhase).env = s.env := rfl
@[simp] theorem State.clearPhase_dec (s : State) : (s.clearPhase).dec = s.dec := rfl
@[simp] theorem State.clearPhase_huff (s : State) : (s.clearPhase).huff = s.huff := rfl
@[simp] theorem State.clearPhase_err (s : State) : (s.clearPhase).err = s.err := rfl
@[simp] theorem State.clearPhase_host (s : State) : (s.clearPhase).host = { s.host with badcmd := false } := rfl
@[simp] theorem State.clearPhase_inp (s : State) : (s.clearPhase).inp = s.inp := rfl
@[simp] theorem State.clearPhase_out (s : State) : (s.clearPhase).out = s.out := rfl
@[simp] theorem State.clearPhase_img (s : State) : (s.clearPhase).img = s.img := rfl
@[simp] theorem State.clearPhase_hist (s : State) : (s.clearPhase).hist = s.hist := rfl
@[simp] theorem State.clearPhase_subj (s : State) : (s.clearPhase).subj = s.subj := rfl
@[simp] theorem State.clearPhase_params (s : State) : (s.clearPhase).params = s.params := rfl
@[simp] theorem State.clearPhase_agenda (s : State) : (s.clearPhase).agenda = s.agenda := rfl
@[simp] theorem State.clearPhase_rdata (s : State) : (s.clearPhase).rdata = s.rdata := rfl
@[simp] theorem State.clearPhase_taken (s : State) : (s.clearPhase).taken = s.taken := rfl
@[simp] theorem State.clearPhase_epoch (s : State) : (s.clearPhase).epoch = s.epoch := rfl

/-! ### refuse -/

@[simp] theorem State.refuse_ctl (s : State) : (s.refuse).ctl = s.ctl := rfl
@[simp] theorem State.refuse_fr (s : State) : (s.refuse).fr = s.fr := rfl
@[simp] theorem State.refuse_env (s : State) : (s.refuse).env = s.env := rfl
@[simp] theorem State.refuse_dec (s : State) : (s.refuse).dec = s.dec := rfl
@[simp] theorem State.refuse_huff (s : State) : (s.refuse).huff = s.huff := rfl
@[simp] theorem State.refuse_err (s : State) : (s.refuse).err = s.err := rfl
@[simp] theorem State.refuse_host (s : State) : (s.refuse).host = { s.host with badcmd := true } := rfl
@[simp] theorem State.refuse_inp (s : State) : (s.refuse).inp = s.inp := rfl
@[simp] theorem State.refuse_out (s : State) : (s.refuse).out = s.out := rfl
@[simp] theorem State.refuse_img (s : State) : (s.refuse).img = s.img := rfl
@[simp] theorem State.refuse_hist (s : State) : (s.refuse).hist = s.hist := rfl
@[simp] theorem State.refuse_subj (s : State) : (s.refuse).subj = s.subj := rfl
@[simp] theorem State.refuse_params (s : State) : (s.refuse).params = s.params := rfl
@[simp] theorem State.refuse_agenda (s : State) : (s.refuse).agenda = s.agenda := rfl
@[simp] theorem State.refuse_rdata (s : State) : (s.refuse).rdata = s.rdata := rfl
@[simp] theorem State.refuse_taken (s : State) : (s.refuse).taken = s.taken := rfl
@[simp] theorem State.refuse_epoch (s : State) : (s.refuse).epoch = s.epoch := rfl

/-! ### complete -/

@[simp] theorem State.complete_ctl (s : State) : (s.complete).ctl = { s.ctl with phase := .done } := rfl
@[simp] theorem State.complete_fr (s : State) : (s.complete).fr = s.fr := rfl
@[simp] theorem State.complete_env (s : State) : (s.complete).env = s.env := rfl
@[simp] theorem State.complete_dec (s : State) : (s.complete).dec = s.dec := rfl
@[simp] theorem State.complete_huff (s : State) : (s.complete).huff = s.huff := rfl
@[simp] theorem State.complete_err (s : State) : (s.complete).err = s.err := rfl
@[simp] theorem State.complete_host (s : State) : (s.complete).host = { s.host with irqDone := true } := rfl
@[simp] theorem State.complete_inp (s : State) : (s.complete).inp = s.inp := rfl
@[simp] theorem State.complete_out (s : State) : (s.complete).out = s.out := rfl
@[simp] theorem State.complete_img (s : State) : (s.complete).img = s.img := rfl
@[simp] theorem State.complete_hist (s : State) : (s.complete).hist = s.hist := rfl
@[simp] theorem State.complete_subj (s : State) : (s.complete).subj = s.subj := rfl
@[simp] theorem State.complete_params (s : State) : (s.complete).params = s.params := rfl
@[simp] theorem State.complete_agenda (s : State) : (s.complete).agenda = s.agenda := rfl
@[simp] theorem State.complete_rdata (s : State) : (s.complete).rdata = s.rdata := rfl
@[simp] theorem State.complete_taken (s : State) : (s.complete).taken = s.taken := rfl
@[simp] theorem State.complete_epoch (s : State) : (s.complete).epoch = s.epoch := rfl

/-! ### startClear -/

@[simp] theorem State.startClear_ctl (s : State) (k : Bool) : (s.startClear k).ctl = { s.ctl with fstate := .soh, dstate := .env } := rfl
@[simp] theorem State.startClear_fr (s : State) (k : Bool) : (s.startClear k).fr = ⟨0, 0, 0, 0, 0, 0, false, [0, 0, 0, 0, 0, 0], 0, 0, 0, 0, 0, 0, 0, if k then s.fr.imageLen else 0⟩ := rfl
@[simp] theorem State.startClear_env (s : State) (k : Bool) : (s.startClear k).env = ⟨false, 0, 0⟩ := rfl
@[simp] theorem State.startClear_dec (s : State) (k : Bool) : (s.startClear k).dec = { s.dec with bitpos := 0, outCount := 0, sym := 0, mLen := 0, mSrc := 0, crcCalc := 0, crcRes := 0 } := rfl
@[simp] theorem State.startClear_huff (s : State) (k : Bool) : (s.startClear k).huff = s.huff := rfl
@[simp] theorem State.startClear_err (s : State) (k : Bool) : (s.startClear k).err = ⟨0, 0, 0, 0⟩ := rfl
@[simp] theorem State.startClear_host (s : State) (k : Bool) : (s.startClear k).host = { s.host with cfgCrcEn := s.host.ctrlCrcEn, cfgStrict := s.host.ctrlStrict } := rfl
@[simp] theorem State.startClear_inp (s : State) (k : Bool) : (s.startClear k).inp = s.inp := rfl
@[simp] theorem State.startClear_out (s : State) (k : Bool) : (s.startClear k).out = s.out := rfl
@[simp] theorem State.startClear_img (s : State) (k : Bool) : (s.startClear k).img = s.img := rfl
@[simp] theorem State.startClear_hist (s : State) (k : Bool) : (s.startClear k).hist = s.hist := rfl
@[simp] theorem State.startClear_subj (s : State) (k : Bool) : (s.startClear k).subj = s.subj := rfl
@[simp] theorem State.startClear_params (s : State) (k : Bool) : (s.startClear k).params = s.params := rfl
@[simp] theorem State.startClear_agenda (s : State) (k : Bool) : (s.startClear k).agenda = s.agenda := rfl
@[simp] theorem State.startClear_rdata (s : State) (k : Bool) : (s.startClear k).rdata = s.rdata := rfl
@[simp] theorem State.startClear_taken (s : State) (k : Bool) : (s.startClear k).taken = s.taken := rfl
@[simp] theorem State.startClear_epoch (s : State) (k : Bool) : (s.startClear k).epoch = s.epoch := rfl

/-! ### consumeByte -/

@[simp] theorem State.consumeByte_ctl (s : State) : (s.consumeByte).ctl = s.ctl := rfl
@[simp] theorem State.consumeByte_fr (s : State) : (s.consumeByte).fr = { s.fr with consumed := s.fr.consumed + 1 } := rfl
@[simp] theorem State.consumeByte_env (s : State) : (s.consumeByte).env = s.env := rfl
@[simp] theorem State.consumeByte_dec (s : State) : (s.consumeByte).dec = s.dec := rfl
@[simp] theorem State.consumeByte_huff (s : State) : (s.consumeByte).huff = s.huff := rfl
@[simp] theorem State.consumeByte_err (s : State) : (s.consumeByte).err = s.err := rfl
@[simp] theorem State.consumeByte_host (s : State) : (s.consumeByte).host = s.host := rfl
@[simp] theorem State.consumeByte_inp (s : State) : (s.consumeByte).inp = { s.inp with valid := false } := rfl
@[simp] theorem State.consumeByte_out (s : State) : (s.consumeByte).out = s.out := rfl
@[simp] theorem State.consumeByte_img (s : State) : (s.consumeByte).img = s.img := rfl
@[simp] theorem State.consumeByte_hist (s : State) : (s.consumeByte).hist = s.hist := rfl
@[simp] theorem State.consumeByte_subj (s : State) : (s.consumeByte).subj = s.subj := rfl
@[simp] theorem State.consumeByte_params (s : State) : (s.consumeByte).params = s.params := rfl
@[simp] theorem State.consumeByte_agenda (s : State) : (s.consumeByte).agenda = s.agenda := rfl
@[simp] theorem State.consumeByte_rdata (s : State) : (s.consumeByte).rdata = s.rdata := rfl
@[simp] theorem State.consumeByte_taken (s : State) : (s.consumeByte).taken = s.taken := rfl
@[simp] theorem State.consumeByte_epoch (s : State) : (s.consumeByte).epoch = s.epoch := rfl

/-! ### countHeaderByte -/

@[simp] theorem State.countHeaderByte_ctl (s : State) : (s.countHeaderByte).ctl = s.ctl := rfl
@[simp] theorem State.countHeaderByte_fr (s : State) : (s.countHeaderByte).fr = { s.fr with hdrRem := s.fr.hdrRem - 1 } := rfl
@[simp] theorem State.countHeaderByte_env (s : State) : (s.countHeaderByte).env = s.env := rfl
@[simp] theorem State.countHeaderByte_dec (s : State) : (s.countHeaderByte).dec = s.dec := rfl
@[simp] theorem State.countHeaderByte_huff (s : State) : (s.countHeaderByte).huff = s.huff := rfl
@[simp] theorem State.countHeaderByte_err (s : State) : (s.countHeaderByte).err = s.err := rfl
@[simp] theorem State.countHeaderByte_host (s : State) : (s.countHeaderByte).host = s.host := rfl
@[simp] theorem State.countHeaderByte_inp (s : State) : (s.countHeaderByte).inp = s.inp := rfl
@[simp] theorem State.countHeaderByte_out (s : State) : (s.countHeaderByte).out = s.out := rfl
@[simp] theorem State.countHeaderByte_img (s : State) : (s.countHeaderByte).img = s.img := rfl
@[simp] theorem State.countHeaderByte_hist (s : State) : (s.countHeaderByte).hist = s.hist := rfl
@[simp] theorem State.countHeaderByte_subj (s : State) : (s.countHeaderByte).subj = s.subj := rfl
@[simp] theorem State.countHeaderByte_params (s : State) : (s.countHeaderByte).params = s.params := rfl
@[simp] theorem State.countHeaderByte_agenda (s : State) : (s.countHeaderByte).agenda = s.agenda := rfl
@[simp] theorem State.countHeaderByte_rdata (s : State) : (s.countHeaderByte).rdata = s.rdata := rfl
@[simp] theorem State.countHeaderByte_taken (s : State) : (s.countHeaderByte).taken = s.taken := rfl
@[simp] theorem State.countHeaderByte_epoch (s : State) : (s.countHeaderByte).epoch = s.epoch := rfl

/-! ### gotoF -/

@[simp] theorem State.gotoF_ctl (s : State) (f : FState) : (s.gotoF f).ctl = { s.ctl with fstate := f } := rfl
@[simp] theorem State.gotoF_fr (s : State) (f : FState) : (s.gotoF f).fr = s.fr := rfl
@[simp] theorem State.gotoF_env (s : State) (f : FState) : (s.gotoF f).env = s.env := rfl
@[simp] theorem State.gotoF_dec (s : State) (f : FState) : (s.gotoF f).dec = s.dec := rfl
@[simp] theorem State.gotoF_huff (s : State) (f : FState) : (s.gotoF f).huff = s.huff := rfl
@[simp] theorem State.gotoF_err (s : State) (f : FState) : (s.gotoF f).err = s.err := rfl
@[simp] theorem State.gotoF_host (s : State) (f : FState) : (s.gotoF f).host = s.host := rfl
@[simp] theorem State.gotoF_inp (s : State) (f : FState) : (s.gotoF f).inp = s.inp := rfl
@[simp] theorem State.gotoF_out (s : State) (f : FState) : (s.gotoF f).out = s.out := rfl
@[simp] theorem State.gotoF_img (s : State) (f : FState) : (s.gotoF f).img = s.img := rfl
@[simp] theorem State.gotoF_hist (s : State) (f : FState) : (s.gotoF f).hist = s.hist := rfl
@[simp] theorem State.gotoF_subj (s : State) (f : FState) : (s.gotoF f).subj = s.subj := rfl
@[simp] theorem State.gotoF_params (s : State) (f : FState) : (s.gotoF f).params = s.params := rfl
@[simp] theorem State.gotoF_agenda (s : State) (f : FState) : (s.gotoF f).agenda = s.agenda := rfl
@[simp] theorem State.gotoF_rdata (s : State) (f : FState) : (s.gotoF f).rdata = s.rdata := rfl
@[simp] theorem State.gotoF_taken (s : State) (f : FState) : (s.gotoF f).taken = s.taken := rfl
@[simp] theorem State.gotoF_epoch (s : State) (f : FState) : (s.gotoF f).epoch = s.epoch := rfl

/-! ### gotoD -/

@[simp] theorem State.gotoD_ctl (s : State) (d : DState) : (s.gotoD d).ctl = { s.ctl with dstate := d } := rfl
@[simp] theorem State.gotoD_fr (s : State) (d : DState) : (s.gotoD d).fr = s.fr := rfl
@[simp] theorem State.gotoD_env (s : State) (d : DState) : (s.gotoD d).env = s.env := rfl
@[simp] theorem State.gotoD_dec (s : State) (d : DState) : (s.gotoD d).dec = s.dec := rfl
@[simp] theorem State.gotoD_huff (s : State) (d : DState) : (s.gotoD d).huff = s.huff := rfl
@[simp] theorem State.gotoD_err (s : State) (d : DState) : (s.gotoD d).err = s.err := rfl
@[simp] theorem State.gotoD_host (s : State) (d : DState) : (s.gotoD d).host = s.host := rfl
@[simp] theorem State.gotoD_inp (s : State) (d : DState) : (s.gotoD d).inp = s.inp := rfl
@[simp] theorem State.gotoD_out (s : State) (d : DState) : (s.gotoD d).out = s.out := rfl
@[simp] theorem State.gotoD_img (s : State) (d : DState) : (s.gotoD d).img = s.img := rfl
@[simp] theorem State.gotoD_hist (s : State) (d : DState) : (s.gotoD d).hist = s.hist := rfl
@[simp] theorem State.gotoD_subj (s : State) (d : DState) : (s.gotoD d).subj = s.subj := rfl
@[simp] theorem State.gotoD_params (s : State) (d : DState) : (s.gotoD d).params = s.params := rfl
@[simp] theorem State.gotoD_agenda (s : State) (d : DState) : (s.gotoD d).agenda = s.agenda := rfl
@[simp] theorem State.gotoD_rdata (s : State) (d : DState) : (s.gotoD d).rdata = s.rdata := rfl
@[simp] theorem State.gotoD_taken (s : State) (d : DState) : (s.gotoD d).taken = s.taken := rfl
@[simp] theorem State.gotoD_epoch (s : State) (d : DState) : (s.gotoD d).epoch = s.epoch := rfl

/-! ### emit -/

@[simp] theorem State.emit_ctl (s : State) (b : Byte) : (s.emit b).ctl = s.ctl := rfl
@[simp] theorem State.emit_fr (s : State) (b : Byte) : (s.emit b).fr = s.fr := rfl
@[simp] theorem State.emit_env (s : State) (b : Byte) : (s.emit b).env = s.env := rfl
@[simp] theorem State.emit_dec (s : State) (b : Byte) : (s.emit b).dec = s.dec := rfl
@[simp] theorem State.emit_huff (s : State) (b : Byte) : (s.emit b).huff = s.huff := rfl
@[simp] theorem State.emit_err (s : State) (b : Byte) : (s.emit b).err = s.err := rfl
@[simp] theorem State.emit_host (s : State) (b : Byte) : (s.emit b).host = s.host := rfl
@[simp] theorem State.emit_inp (s : State) (b : Byte) : (s.emit b).inp = s.inp := rfl
@[simp] theorem State.emit_out (s : State) (b : Byte) : (s.emit b).out = ⟨true, b⟩ := rfl
@[simp] theorem State.emit_img (s : State) (b : Byte) : (s.emit b).img = s.img := rfl
@[simp] theorem State.emit_hist (s : State) (b : Byte) : (s.emit b).hist = s.hist := rfl
@[simp] theorem State.emit_subj (s : State) (b : Byte) : (s.emit b).subj = s.subj := rfl
@[simp] theorem State.emit_params (s : State) (b : Byte) : (s.emit b).params = s.params := rfl
@[simp] theorem State.emit_agenda (s : State) (b : Byte) : (s.emit b).agenda = s.agenda := rfl
@[simp] theorem State.emit_rdata (s : State) (b : Byte) : (s.emit b).rdata = s.rdata := rfl
@[simp] theorem State.emit_taken (s : State) (b : Byte) : (s.emit b).taken = s.taken := rfl
@[simp] theorem State.emit_epoch (s : State) (b : Byte) : (s.emit b).epoch = s.epoch := rfl

/-! ### answer -/

@[simp] theorem State.answer_ctl (s : State) (v : Word) : (s.answer v).ctl = s.ctl := rfl
@[simp] theorem State.answer_fr (s : State) (v : Word) : (s.answer v).fr = s.fr := rfl
@[simp] theorem State.answer_env (s : State) (v : Word) : (s.answer v).env = s.env := rfl
@[simp] theorem State.answer_dec (s : State) (v : Word) : (s.answer v).dec = s.dec := rfl
@[simp] theorem State.answer_huff (s : State) (v : Word) : (s.answer v).huff = s.huff := rfl
@[simp] theorem State.answer_err (s : State) (v : Word) : (s.answer v).err = s.err := rfl
@[simp] theorem State.answer_host (s : State) (v : Word) : (s.answer v).host = s.host := rfl
@[simp] theorem State.answer_inp (s : State) (v : Word) : (s.answer v).inp = s.inp := rfl
@[simp] theorem State.answer_out (s : State) (v : Word) : (s.answer v).out = s.out := rfl
@[simp] theorem State.answer_img (s : State) (v : Word) : (s.answer v).img = s.img := rfl
@[simp] theorem State.answer_hist (s : State) (v : Word) : (s.answer v).hist = s.hist := rfl
@[simp] theorem State.answer_subj (s : State) (v : Word) : (s.answer v).subj = s.subj := rfl
@[simp] theorem State.answer_params (s : State) (v : Word) : (s.answer v).params = s.params := rfl
@[simp] theorem State.answer_agenda (s : State) (v : Word) : (s.answer v).agenda = s.agenda := rfl
@[simp] theorem State.answer_rdata (s : State) (v : Word) : (s.answer v).rdata = v := rfl
@[simp] theorem State.answer_taken (s : State) (v : Word) : (s.answer v).taken = s.taken := rfl
@[simp] theorem State.answer_epoch (s : State) (v : Word) : (s.answer v).epoch = s.epoch := rfl

/-! ### writeImg -/

@[simp] theorem State.writeImg_ctl (s : State) (a : Nat) (b : Byte) : (s.writeImg a b).ctl = s.ctl := rfl
@[simp] theorem State.writeImg_fr (s : State) (a : Nat) (b : Byte) : (s.writeImg a b).fr = s.fr := rfl
@[simp] theorem State.writeImg_env (s : State) (a : Nat) (b : Byte) : (s.writeImg a b).env = s.env := rfl
@[simp] theorem State.writeImg_dec (s : State) (a : Nat) (b : Byte) : (s.writeImg a b).dec = s.dec := rfl
@[simp] theorem State.writeImg_huff (s : State) (a : Nat) (b : Byte) : (s.writeImg a b).huff = s.huff := rfl
@[simp] theorem State.writeImg_err (s : State) (a : Nat) (b : Byte) : (s.writeImg a b).err = s.err := rfl
@[simp] theorem State.writeImg_host (s : State) (a : Nat) (b : Byte) : (s.writeImg a b).host = s.host := rfl
@[simp] theorem State.writeImg_inp (s : State) (a : Nat) (b : Byte) : (s.writeImg a b).inp = s.inp := rfl
@[simp] theorem State.writeImg_out (s : State) (a : Nat) (b : Byte) : (s.writeImg a b).out = s.out := rfl
@[simp] theorem State.writeImg_img (s : State) (a : Nat) (b : Byte) : (s.writeImg a b).img = Memory.write none a b s.img := rfl
@[simp] theorem State.writeImg_hist (s : State) (a : Nat) (b : Byte) : (s.writeImg a b).hist = s.hist := rfl
@[simp] theorem State.writeImg_subj (s : State) (a : Nat) (b : Byte) : (s.writeImg a b).subj = s.subj := rfl
@[simp] theorem State.writeImg_params (s : State) (a : Nat) (b : Byte) : (s.writeImg a b).params = s.params := rfl
@[simp] theorem State.writeImg_agenda (s : State) (a : Nat) (b : Byte) : (s.writeImg a b).agenda = s.agenda := rfl
@[simp] theorem State.writeImg_rdata (s : State) (a : Nat) (b : Byte) : (s.writeImg a b).rdata = s.rdata := rfl
@[simp] theorem State.writeImg_taken (s : State) (a : Nat) (b : Byte) : (s.writeImg a b).taken = s.taken := rfl
@[simp] theorem State.writeImg_epoch (s : State) (a : Nat) (b : Byte) : (s.writeImg a b).epoch = s.epoch := rfl

/-! ### writeHist -/

@[simp] theorem State.writeHist_ctl (s : State) (i : HistIndex) (b : Byte) : (s.writeHist i b).ctl = s.ctl := rfl
@[simp] theorem State.writeHist_fr (s : State) (i : HistIndex) (b : Byte) : (s.writeHist i b).fr = s.fr := rfl
@[simp] theorem State.writeHist_env (s : State) (i : HistIndex) (b : Byte) : (s.writeHist i b).env = s.env := rfl
@[simp] theorem State.writeHist_dec (s : State) (i : HistIndex) (b : Byte) : (s.writeHist i b).dec = s.dec := rfl
@[simp] theorem State.writeHist_huff (s : State) (i : HistIndex) (b : Byte) : (s.writeHist i b).huff = s.huff := rfl
@[simp] theorem State.writeHist_err (s : State) (i : HistIndex) (b : Byte) : (s.writeHist i b).err = s.err := rfl
@[simp] theorem State.writeHist_host (s : State) (i : HistIndex) (b : Byte) : (s.writeHist i b).host = s.host := rfl
@[simp] theorem State.writeHist_inp (s : State) (i : HistIndex) (b : Byte) : (s.writeHist i b).inp = s.inp := rfl
@[simp] theorem State.writeHist_out (s : State) (i : HistIndex) (b : Byte) : (s.writeHist i b).out = s.out := rfl
@[simp] theorem State.writeHist_img (s : State) (i : HistIndex) (b : Byte) : (s.writeHist i b).img = s.img := rfl
@[simp] theorem State.writeHist_hist (s : State) (i : HistIndex) (b : Byte) : (s.writeHist i b).hist = Memory.write (some s.params.val.histFill) i.toNat b s.hist := rfl
@[simp] theorem State.writeHist_subj (s : State) (i : HistIndex) (b : Byte) : (s.writeHist i b).subj = s.subj := rfl
@[simp] theorem State.writeHist_params (s : State) (i : HistIndex) (b : Byte) : (s.writeHist i b).params = s.params := rfl
@[simp] theorem State.writeHist_agenda (s : State) (i : HistIndex) (b : Byte) : (s.writeHist i b).agenda = s.agenda := rfl
@[simp] theorem State.writeHist_rdata (s : State) (i : HistIndex) (b : Byte) : (s.writeHist i b).rdata = s.rdata := rfl
@[simp] theorem State.writeHist_taken (s : State) (i : HistIndex) (b : Byte) : (s.writeHist i b).taken = s.taken := rfl
@[simp] theorem State.writeHist_epoch (s : State) (i : HistIndex) (b : Byte) : (s.writeHist i b).epoch = s.epoch := rfl

/-! ### writeSubj -/

@[simp] theorem State.writeSubj_ctl (s : State) (i : Nat) (b : Byte) : (s.writeSubj i b).ctl = s.ctl := rfl
@[simp] theorem State.writeSubj_fr (s : State) (i : Nat) (b : Byte) : (s.writeSubj i b).fr = s.fr := rfl
@[simp] theorem State.writeSubj_env (s : State) (i : Nat) (b : Byte) : (s.writeSubj i b).env = s.env := rfl
@[simp] theorem State.writeSubj_dec (s : State) (i : Nat) (b : Byte) : (s.writeSubj i b).dec = s.dec := rfl
@[simp] theorem State.writeSubj_huff (s : State) (i : Nat) (b : Byte) : (s.writeSubj i b).huff = s.huff := rfl
@[simp] theorem State.writeSubj_err (s : State) (i : Nat) (b : Byte) : (s.writeSubj i b).err = s.err := rfl
@[simp] theorem State.writeSubj_host (s : State) (i : Nat) (b : Byte) : (s.writeSubj i b).host = s.host := rfl
@[simp] theorem State.writeSubj_inp (s : State) (i : Nat) (b : Byte) : (s.writeSubj i b).inp = s.inp := rfl
@[simp] theorem State.writeSubj_out (s : State) (i : Nat) (b : Byte) : (s.writeSubj i b).out = s.out := rfl
@[simp] theorem State.writeSubj_img (s : State) (i : Nat) (b : Byte) : (s.writeSubj i b).img = s.img := rfl
@[simp] theorem State.writeSubj_hist (s : State) (i : Nat) (b : Byte) : (s.writeSubj i b).hist = s.hist := rfl
@[simp] theorem State.writeSubj_subj (s : State) (i : Nat) (b : Byte) : (s.writeSubj i b).subj = Memory.write none i b s.subj := rfl
@[simp] theorem State.writeSubj_params (s : State) (i : Nat) (b : Byte) : (s.writeSubj i b).params = s.params := rfl
@[simp] theorem State.writeSubj_agenda (s : State) (i : Nat) (b : Byte) : (s.writeSubj i b).agenda = s.agenda := rfl
@[simp] theorem State.writeSubj_rdata (s : State) (i : Nat) (b : Byte) : (s.writeSubj i b).rdata = s.rdata := rfl
@[simp] theorem State.writeSubj_taken (s : State) (i : Nat) (b : Byte) : (s.writeSubj i b).taken = s.taken := rfl
@[simp] theorem State.writeSubj_epoch (s : State) (i : Nat) (b : Byte) : (s.writeSubj i b).epoch = s.epoch := rfl

/-! ### advanceImgAddr -/

@[simp] theorem State.advanceImgAddr_ctl (s : State) : (s.advanceImgAddr).ctl = s.ctl := rfl
@[simp] theorem State.advanceImgAddr_fr (s : State) : (s.advanceImgAddr).fr = s.fr := rfl
@[simp] theorem State.advanceImgAddr_env (s : State) : (s.advanceImgAddr).env = s.env := rfl
@[simp] theorem State.advanceImgAddr_dec (s : State) : (s.advanceImgAddr).dec = s.dec := rfl
@[simp] theorem State.advanceImgAddr_huff (s : State) : (s.advanceImgAddr).huff = s.huff := rfl
@[simp] theorem State.advanceImgAddr_err (s : State) : (s.advanceImgAddr).err = s.err := rfl
@[simp] theorem State.advanceImgAddr_host (s : State) : (s.advanceImgAddr).host = { s.host with imgAddr := s.host.imgAddr + 1 } := rfl
@[simp] theorem State.advanceImgAddr_inp (s : State) : (s.advanceImgAddr).inp = s.inp := rfl
@[simp] theorem State.advanceImgAddr_out (s : State) : (s.advanceImgAddr).out = s.out := rfl
@[simp] theorem State.advanceImgAddr_img (s : State) : (s.advanceImgAddr).img = s.img := rfl
@[simp] theorem State.advanceImgAddr_hist (s : State) : (s.advanceImgAddr).hist = s.hist := rfl
@[simp] theorem State.advanceImgAddr_subj (s : State) : (s.advanceImgAddr).subj = s.subj := rfl
@[simp] theorem State.advanceImgAddr_params (s : State) : (s.advanceImgAddr).params = s.params := rfl
@[simp] theorem State.advanceImgAddr_agenda (s : State) : (s.advanceImgAddr).agenda = s.agenda := rfl
@[simp] theorem State.advanceImgAddr_rdata (s : State) : (s.advanceImgAddr).rdata = s.rdata := rfl
@[simp] theorem State.advanceImgAddr_taken (s : State) : (s.advanceImgAddr).taken = s.taken := rfl
@[simp] theorem State.advanceImgAddr_epoch (s : State) : (s.advanceImgAddr).epoch = s.epoch := rfl

/-! ### skipBit -/

@[simp] theorem State.skipBit_ctl (s : State) : (s.skipBit).ctl = s.ctl := rfl
@[simp] theorem State.skipBit_fr (s : State) : (s.skipBit).fr = s.fr := rfl
@[simp] theorem State.skipBit_env (s : State) : (s.skipBit).env = s.env := rfl
@[simp] theorem State.skipBit_dec (s : State) : (s.skipBit).dec = { s.dec with bitpos := s.dec.bitpos + 1 } := rfl
@[simp] theorem State.skipBit_huff (s : State) : (s.skipBit).huff = s.huff := rfl
@[simp] theorem State.skipBit_err (s : State) : (s.skipBit).err = s.err := rfl
@[simp] theorem State.skipBit_host (s : State) : (s.skipBit).host = s.host := rfl
@[simp] theorem State.skipBit_inp (s : State) : (s.skipBit).inp = s.inp := rfl
@[simp] theorem State.skipBit_out (s : State) : (s.skipBit).out = s.out := rfl
@[simp] theorem State.skipBit_img (s : State) : (s.skipBit).img = s.img := rfl
@[simp] theorem State.skipBit_hist (s : State) : (s.skipBit).hist = s.hist := rfl
@[simp] theorem State.skipBit_subj (s : State) : (s.skipBit).subj = s.subj := rfl
@[simp] theorem State.skipBit_params (s : State) : (s.skipBit).params = s.params := rfl
@[simp] theorem State.skipBit_agenda (s : State) : (s.skipBit).agenda = s.agenda := rfl
@[simp] theorem State.skipBit_rdata (s : State) : (s.skipBit).rdata = s.rdata := rfl
@[simp] theorem State.skipBit_taken (s : State) : (s.skipBit).taken = s.taken := rfl
@[simp] theorem State.skipBit_epoch (s : State) : (s.skipBit).epoch = s.epoch := rfl

/-! ### output -/

@[simp] theorem State.output_ctl (s : State) (b : Byte) : (s.output b).ctl = s.ctl := rfl
@[simp] theorem State.output_fr (s : State) (b : Byte) : (s.output b).fr = s.fr := rfl
@[simp] theorem State.output_env (s : State) (b : Byte) : (s.output b).env = s.env := rfl
@[simp] theorem State.output_dec (s : State) (b : Byte) : (s.output b).dec = { s.dec with wpos := histIndex s.params (s.dec.wpos.toNat + 1), outCount := s.dec.outCount + 1, crcCalc := crcByte s.params s.dec.crcCalc b } := rfl
@[simp] theorem State.output_huff (s : State) (b : Byte) : (s.output b).huff = s.huff := rfl
@[simp] theorem State.output_err (s : State) (b : Byte) : (s.output b).err = s.err := rfl
@[simp] theorem State.output_host (s : State) (b : Byte) : (s.output b).host = s.host := rfl
@[simp] theorem State.output_inp (s : State) (b : Byte) : (s.output b).inp = s.inp := rfl
@[simp] theorem State.output_out (s : State) (b : Byte) : (s.output b).out = ⟨true, b⟩ := rfl
@[simp] theorem State.output_img (s : State) (b : Byte) : (s.output b).img = s.img := rfl
@[simp] theorem State.output_hist (s : State) (b : Byte) : (s.output b).hist = Memory.write (some s.params.val.histFill) s.dec.wpos.toNat b s.hist := rfl
@[simp] theorem State.output_subj (s : State) (b : Byte) : (s.output b).subj = s.subj := rfl
@[simp] theorem State.output_params (s : State) (b : Byte) : (s.output b).params = s.params := rfl
@[simp] theorem State.output_agenda (s : State) (b : Byte) : (s.output b).agenda = s.agenda := rfl
@[simp] theorem State.output_rdata (s : State) (b : Byte) : (s.output b).rdata = s.rdata := rfl
@[simp] theorem State.output_taken (s : State) (b : Byte) : (s.output b).taken = s.taken := rfl
@[simp] theorem State.output_epoch (s : State) (b : Byte) : (s.output b).epoch = s.epoch := rfl

/-! ### push -/

@[simp] theorem State.push_ctl (s : State) (b : Byte) : (s.push b).ctl = s.ctl := rfl
@[simp] theorem State.push_fr (s : State) (b : Byte) : (s.push b).fr = s.fr := rfl
@[simp] theorem State.push_env (s : State) (b : Byte) : (s.push b).env = s.env := rfl
@[simp] theorem State.push_dec (s : State) (b : Byte) : (s.push b).dec = s.dec := rfl
@[simp] theorem State.push_huff (s : State) (b : Byte) : (s.push b).huff = s.huff := rfl
@[simp] theorem State.push_err (s : State) (b : Byte) : (s.push b).err = s.err := rfl
@[simp] theorem State.push_host (s : State) (b : Byte) : (s.push b).host = s.host := rfl
@[simp] theorem State.push_inp (s : State) (b : Byte) : (s.push b).inp = { s.inp with valid := true, data := b } := rfl
@[simp] theorem State.push_out (s : State) (b : Byte) : (s.push b).out = s.out := rfl
@[simp] theorem State.push_img (s : State) (b : Byte) : (s.push b).img = s.img := rfl
@[simp] theorem State.push_hist (s : State) (b : Byte) : (s.push b).hist = s.hist := rfl
@[simp] theorem State.push_subj (s : State) (b : Byte) : (s.push b).subj = s.subj := rfl
@[simp] theorem State.push_params (s : State) (b : Byte) : (s.push b).params = s.params := rfl
@[simp] theorem State.push_agenda (s : State) (b : Byte) : (s.push b).agenda = s.agenda := rfl
@[simp] theorem State.push_rdata (s : State) (b : Byte) : (s.push b).rdata = s.rdata := rfl
@[simp] theorem State.push_taken (s : State) (b : Byte) : (s.push b).taken = s.taken := rfl
@[simp] theorem State.push_epoch (s : State) (b : Byte) : (s.push b).epoch = s.epoch := rfl

/-! ### setEnd -/

@[simp] theorem State.setEnd_ctl (s : State) (e : Bool) : (s.setEnd e).ctl = s.ctl := rfl
@[simp] theorem State.setEnd_fr (s : State) (e : Bool) : (s.setEnd e).fr = s.fr := rfl
@[simp] theorem State.setEnd_env (s : State) (e : Bool) : (s.setEnd e).env = s.env := rfl
@[simp] theorem State.setEnd_dec (s : State) (e : Bool) : (s.setEnd e).dec = s.dec := rfl
@[simp] theorem State.setEnd_huff (s : State) (e : Bool) : (s.setEnd e).huff = s.huff := rfl
@[simp] theorem State.setEnd_err (s : State) (e : Bool) : (s.setEnd e).err = s.err := rfl
@[simp] theorem State.setEnd_host (s : State) (e : Bool) : (s.setEnd e).host = s.host := rfl
@[simp] theorem State.setEnd_inp (s : State) (e : Bool) : (s.setEnd e).inp = { s.inp with ended := e } := rfl
@[simp] theorem State.setEnd_out (s : State) (e : Bool) : (s.setEnd e).out = s.out := rfl
@[simp] theorem State.setEnd_img (s : State) (e : Bool) : (s.setEnd e).img = s.img := rfl
@[simp] theorem State.setEnd_hist (s : State) (e : Bool) : (s.setEnd e).hist = s.hist := rfl
@[simp] theorem State.setEnd_subj (s : State) (e : Bool) : (s.setEnd e).subj = s.subj := rfl
@[simp] theorem State.setEnd_params (s : State) (e : Bool) : (s.setEnd e).params = s.params := rfl
@[simp] theorem State.setEnd_agenda (s : State) (e : Bool) : (s.setEnd e).agenda = s.agenda := rfl
@[simp] theorem State.setEnd_rdata (s : State) (e : Bool) : (s.setEnd e).rdata = s.rdata := rfl
@[simp] theorem State.setEnd_taken (s : State) (e : Bool) : (s.setEnd e).taken = s.taken := rfl
@[simp] theorem State.setEnd_epoch (s : State) (e : Bool) : (s.setEnd e).epoch = s.epoch := rfl

/-! ### take -/

@[simp] theorem State.take_ctl (s : State) : (s.take).ctl = s.ctl := rfl
@[simp] theorem State.take_fr (s : State) : (s.take).fr = s.fr := rfl
@[simp] theorem State.take_env (s : State) : (s.take).env = s.env := rfl
@[simp] theorem State.take_dec (s : State) : (s.take).dec = s.dec := rfl
@[simp] theorem State.take_huff (s : State) : (s.take).huff = s.huff := rfl
@[simp] theorem State.take_err (s : State) : (s.take).err = s.err := rfl
@[simp] theorem State.take_host (s : State) : (s.take).host = s.host := rfl
@[simp] theorem State.take_inp (s : State) : (s.take).inp = s.inp := rfl
@[simp] theorem State.take_out (s : State) : (s.take).out = { s.out with valid := false } := rfl
@[simp] theorem State.take_img (s : State) : (s.take).img = s.img := rfl
@[simp] theorem State.take_hist (s : State) : (s.take).hist = s.hist := rfl
@[simp] theorem State.take_subj (s : State) : (s.take).subj = s.subj := rfl
@[simp] theorem State.take_params (s : State) : (s.take).params = s.params := rfl
@[simp] theorem State.take_agenda (s : State) : (s.take).agenda = s.agenda := rfl
@[simp] theorem State.take_rdata (s : State) : (s.take).rdata = s.rdata := rfl
@[simp] theorem State.take_taken (s : State) : (s.take).taken = s.out.data :: s.taken := rfl
@[simp] theorem State.take_epoch (s : State) : (s.take).epoch = s.epoch := rfl

/-! ### resetBlock -/

@[simp] theorem State.resetBlock_ctl (s : State) : (s.resetBlock).ctl = ⟨.idle, .none, .soh, .env⟩ := rfl
@[simp] theorem State.resetBlock_fr (s : State) : (s.resetBlock).fr = (State.resetWith s.params).fr := rfl
@[simp] theorem State.resetBlock_env (s : State) : (s.resetBlock).env = ⟨false, 0, 0⟩ := rfl
@[simp] theorem State.resetBlock_dec (s : State) : (s.resetBlock).dec = ⟨0, 0, 0, 0, 0, 0, 0, 0⟩ := rfl
@[simp] theorem State.resetBlock_huff (s : State) : (s.resetBlock).huff = Huff.zero s.params := rfl
@[simp] theorem State.resetBlock_err (s : State) : (s.resetBlock).err = ⟨0, 0, 0, 0⟩ := rfl
@[simp] theorem State.resetBlock_host (s : State) : (s.resetBlock).host = ⟨false, false, false, false, false, false, false, false, 0⟩ := rfl
@[simp] theorem State.resetBlock_inp (s : State) : (s.resetBlock).inp = ⟨false, 0, false⟩ := rfl
@[simp] theorem State.resetBlock_out (s : State) : (s.resetBlock).out = ⟨false, 0⟩ := rfl
@[simp] theorem State.resetBlock_img (s : State) : (s.resetBlock).img = [] := rfl
@[simp] theorem State.resetBlock_hist (s : State) : (s.resetBlock).hist = [] := rfl
@[simp] theorem State.resetBlock_subj (s : State) : (s.resetBlock).subj = [] := rfl
@[simp] theorem State.resetBlock_params (s : State) : (s.resetBlock).params = s.params := rfl
@[simp] theorem State.resetBlock_agenda (s : State) : (s.resetBlock).agenda = s.agenda := rfl
@[simp] theorem State.resetBlock_rdata (s : State) : (s.resetBlock).rdata = s.rdata := rfl
@[simp] theorem State.resetBlock_taken (s : State) : (s.resetBlock).taken = s.taken := rfl
@[simp] theorem State.resetBlock_epoch (s : State) : (s.resetBlock).epoch = s.epoch + 1 := rfl

/-! ### inError -/

@[simp] theorem State.inError_ctl (s : State) (c : Byte) (o x a : Word) : (s.inError c o x a).ctl = { s.ctl with phase := .error } := rfl
@[simp] theorem State.inError_fr (s : State) (c : Byte) (o x a : Word) : (s.inError c o x a).fr = s.fr := rfl
@[simp] theorem State.inError_env (s : State) (c : Byte) (o x a : Word) : (s.inError c o x a).env = s.env := rfl
@[simp] theorem State.inError_dec (s : State) (c : Byte) (o x a : Word) : (s.inError c o x a).dec = s.dec := rfl
@[simp] theorem State.inError_huff (s : State) (c : Byte) (o x a : Word) : (s.inError c o x a).huff = s.huff := rfl
@[simp] theorem State.inError_err (s : State) (c : Byte) (o x a : Word) : (s.inError c o x a).err = ⟨c, o, x, a⟩ := rfl
@[simp] theorem State.inError_host (s : State) (c : Byte) (o x a : Word) : (s.inError c o x a).host = { s.host with irqErr := true } := rfl
@[simp] theorem State.inError_inp (s : State) (c : Byte) (o x a : Word) : (s.inError c o x a).inp = s.inp := rfl
@[simp] theorem State.inError_out (s : State) (c : Byte) (o x a : Word) : (s.inError c o x a).out = s.out := rfl
@[simp] theorem State.inError_img (s : State) (c : Byte) (o x a : Word) : (s.inError c o x a).img = s.img := rfl
@[simp] theorem State.inError_hist (s : State) (c : Byte) (o x a : Word) : (s.inError c o x a).hist = s.hist := rfl
@[simp] theorem State.inError_subj (s : State) (c : Byte) (o x a : Word) : (s.inError c o x a).subj = s.subj := rfl
@[simp] theorem State.inError_params (s : State) (c : Byte) (o x a : Word) : (s.inError c o x a).params = s.params := rfl
@[simp] theorem State.inError_agenda (s : State) (c : Byte) (o x a : Word) : (s.inError c o x a).agenda = s.agenda := rfl
@[simp] theorem State.inError_rdata (s : State) (c : Byte) (o x a : Word) : (s.inError c o x a).rdata = s.rdata := rfl
@[simp] theorem State.inError_taken (s : State) (c : Byte) (o x a : Word) : (s.inError c o x a).taken = s.taken := rfl
@[simp] theorem State.inError_epoch (s : State) (c : Byte) (o x a : Word) : (s.inError c o x a).epoch = s.epoch := rfl

/-! ### byteTaken -/

@[simp] theorem State.byteTaken_ctl (s : State) : (s.byteTaken).ctl = s.ctl := rfl
@[simp] theorem State.byteTaken_fr (s : State) : (s.byteTaken).fr = { s.fr with consumed := s.fr.consumed + 1 } := rfl
@[simp] theorem State.byteTaken_env (s : State) : (s.byteTaken).env = s.env := rfl
@[simp] theorem State.byteTaken_dec (s : State) : (s.byteTaken).dec = s.dec := rfl
@[simp] theorem State.byteTaken_huff (s : State) : (s.byteTaken).huff = s.huff := rfl
@[simp] theorem State.byteTaken_err (s : State) : (s.byteTaken).err = s.err := rfl
@[simp] theorem State.byteTaken_host (s : State) : (s.byteTaken).host = s.host := rfl
@[simp] theorem State.byteTaken_inp (s : State) : (s.byteTaken).inp = { s.inp with valid := false } := rfl
@[simp] theorem State.byteTaken_out (s : State) : (s.byteTaken).out = s.out := rfl
@[simp] theorem State.byteTaken_img (s : State) : (s.byteTaken).img = s.img := rfl
@[simp] theorem State.byteTaken_hist (s : State) : (s.byteTaken).hist = s.hist := rfl
@[simp] theorem State.byteTaken_subj (s : State) : (s.byteTaken).subj = s.subj := rfl
@[simp] theorem State.byteTaken_params (s : State) : (s.byteTaken).params = s.params := rfl
@[simp] theorem State.byteTaken_agenda (s : State) : (s.byteTaken).agenda = s.agenda := rfl
@[simp] theorem State.byteTaken_rdata (s : State) : (s.byteTaken).rdata = s.rdata := rfl
@[simp] theorem State.byteTaken_taken (s : State) : (s.byteTaken).taken = s.taken := rfl
@[simp] theorem State.byteTaken_epoch (s : State) : (s.byteTaken).epoch = s.epoch := rfl

end Sys2Proof.Machine
end

