-- ==== Sys2Proof/Laws/Memory.lean ====
section
/-!
SUPPORT. The laws of the three memories: a read after a write, and the canonical form that every operation keeps.
-/

namespace Sys2Proof.Machine

open Sys2Proof.Config (Params)

/-! ### Read after write on the listing -/

theorem Memory.lookup_erase_self (a : Nat) (m : Memory) : Memory.lookup a (Memory.erase a m) = none := by
  induction m with
  | nil => rfl
  | cons c rest ih =>
    obtain ⟨k, v⟩ := c
    by_cases h : a = k <;> simp [Memory.erase, Memory.lookup, h]
    · subst h; exact ih
    · simpa [h] using ih

theorem Memory.lookup_erase_ne {a b : Nat} (hab : a ≠ b) (m : Memory) :
    Memory.lookup a (Memory.erase b m) = Memory.lookup a m := by
  induction m with
  | nil => rfl
  | cons c rest ih =>
    obtain ⟨k, v⟩ := c
    by_cases h : b = k
    · subst h; simp [Memory.erase, Memory.lookup, hab, ih]
    · simp [Memory.erase, Memory.lookup, h, ih]

theorem Memory.lookup_insert_self (a : Nat) (b : Byte) (m : Memory) :
    Memory.lookup a (Memory.insert a b m) = some b := by
  induction m with
  | nil => simp [Memory.insert, Memory.lookup]
  | cons c rest ih =>
    obtain ⟨k, v⟩ := c
    rcases Nat.lt_trichotomy a k with h | h | h
    · simp [Memory.insert, Memory.lookup, h]
    · subst h; simp [Memory.insert, Memory.lookup]
    · have h1 : ¬ a < k := by omega
      have h2 : a ≠ k := by omega
      simp [Memory.insert, Memory.lookup, h1, h2, ih]

theorem Memory.lookup_insert_ne {a k : Nat} (hak : a ≠ k) (b : Byte) (m : Memory) :
    Memory.lookup a (Memory.insert k b m) = Memory.lookup a m := by
  induction m with
  | nil => simp [Memory.insert, Memory.lookup, hak]
  | cons c rest ih =>
    obtain ⟨j, v⟩ := c
    rcases Nat.lt_trichotomy k j with h | h | h
    · simp [Memory.insert, Memory.lookup, h, hak]
    · subst h; simp [Memory.insert, Memory.lookup, hak]
    · have h1 : ¬ k < j := by omega
      have h2 : k ≠ j := by omega
      simp [Memory.insert, Memory.lookup, h1, h2, ih]

theorem Memory.lookup_write_ne {a k : Nat} (hak : a ≠ k) (fill : Option Byte) (b : Byte) (m : Memory) :
    Memory.lookup a (Memory.write fill k b m) = Memory.lookup a m := by
  unfold Memory.write
  split
  · exact Memory.lookup_erase_ne hak m
  · exact Memory.lookup_insert_ne hak b m

theorem Memory.lookup_write_none (a : Nat) (b : Byte) (m : Memory) :
    Memory.lookup a (Memory.write none a b m) = some b := by
  simp [Memory.write, Memory.lookup_insert_self]

theorem Memory.lookup_write_fill (f : Byte) (a : Nat) (b : Byte) (m : Memory) :
    (Memory.lookup a (Memory.write (some f) a b m)).getD f = b := by
  unfold Memory.write
  split
  · next h => cases h; simp [Memory.lookup_erase_self]
  · simp [Memory.lookup_insert_self]

/-! ### The canonical form -/

theorem Memory.wfFrom_mono {size : Nat} {fill : Option Byte} {lo lo' : Nat} (h : lo' ≤ lo) :
    ∀ {m : Memory}, Memory.wfFrom size fill lo m = true → Memory.wfFrom size fill lo' m = true
  | [], _ => rfl
  | (k, v) :: rest, hm => by
    simp only [Memory.wfFrom, Bool.and_eq_true, decide_eq_true_eq] at hm ⊢
    exact ⟨⟨⟨by omega, hm.1.1.2⟩, hm.1.2⟩, hm.2⟩

theorem Memory.wfFrom_erase {size : Nat} {fill : Option Byte} (a : Nat) :
    ∀ {lo : Nat} {m : Memory}, Memory.wfFrom size fill lo m = true →
      Memory.wfFrom size fill lo (Memory.erase a m) = true
  | _, [], _ => rfl
  | lo, (k, v) :: rest, hm => by
    simp only [Memory.wfFrom, Bool.and_eq_true, decide_eq_true_eq] at hm
    unfold Memory.erase
    split
    · exact Memory.wfFrom_mono (by omega) (Memory.wfFrom_erase a hm.2)
    · simp only [Memory.wfFrom, Bool.and_eq_true, decide_eq_true_eq]
      exact ⟨hm.1, Memory.wfFrom_erase a hm.2⟩

theorem Memory.wfFrom_insert {size : Nat} {fill : Option Byte} {a : Nat} {b : Byte} (ha : a < size)
    (hb : fill ≠ some b) :
    ∀ {lo : Nat} {m : Memory}, lo ≤ a → Memory.wfFrom size fill lo m = true →
      Memory.wfFrom size fill lo (Memory.insert a b m) = true
  | lo, [], hlo, _ => by simp [Memory.insert, Memory.wfFrom, hlo, ha, hb]
  | lo, (k, v) :: rest, hlo, hm => by
    simp only [Memory.wfFrom, Bool.and_eq_true, decide_eq_true_eq] at hm
    unfold Memory.insert
    split
    · next h =>
      simp only [Memory.wfFrom, Bool.and_eq_true, decide_eq_true_eq]
      exact ⟨⟨⟨hlo, ha⟩, hb⟩, ⟨⟨h, hm.1.1.2⟩, hm.1.2⟩, hm.2⟩
    · split
      · next h =>
        subst h
        simp only [Memory.wfFrom, Bool.and_eq_true, decide_eq_true_eq]
        exact ⟨⟨⟨hlo, ha⟩, hb⟩, hm.2⟩
      · simp only [Memory.wfFrom, Bool.and_eq_true, decide_eq_true_eq]
        exact ⟨hm.1, Memory.wfFrom_insert ha hb (by omega) hm.2⟩

/-- Every write of an address that exists keeps the canonical form. -/
theorem Memory.wf_write {size : Nat} {fill : Option Byte} {a : Nat} (b : Byte) {m : Memory} (ha : a < size)
    (hm : Memory.wf size fill m = true) : Memory.wf size fill (Memory.write fill a b m) = true := by
  unfold Memory.write
  split
  · exact Memory.wfFrom_erase a hm
  · next h => exact Memory.wfFrom_insert ha h (Nat.zero_le _) hm

theorem Memory.wf_nil (size : Nat) (fill : Option Byte) : Memory.wf size fill [] = true := rfl

theorem State.reset_memWf (p : Params) : (State.resetWith p).memWf = true := rfl

/-! ### Reads of the state's memories -/

theorem State.readImg_writeImg_self (s : State) (a : Nat) (b : Byte) : (s.writeImg a b).readImg a = b := by
  simp [State.readImg, State.writeImg, Memory.lookup_write_none]

theorem State.readImg_writeImg_ne (s : State) {a k : Nat} (h : a ≠ k) (b : Byte) :
    (s.writeImg k b).readImg a = s.readImg a := by
  simp [State.readImg, State.writeImg, Memory.lookup_write_ne h]

theorem State.readSubj_writeSubj_self (s : State) (a : Nat) (b : Byte) : (s.writeSubj a b).readSubj a = b := by
  simp [State.readSubj, State.writeSubj, Memory.lookup_write_none]

theorem State.readSubj_writeSubj_ne (s : State) {a k : Nat} (h : a ≠ k) (b : Byte) :
    (s.writeSubj k b).readSubj a = s.readSubj a := by
  simp [State.readSubj, State.writeSubj, Memory.lookup_write_ne h]

theorem State.readHist_eq (s : State) (i : HistIndex) :
    s.readHist i = (s.hist.lookup i.toNat).getD s.params.val.histFill := by
  unfold State.readHist; cases s.hist.lookup i.toNat <;> rfl

theorem State.readHist_writeHist_self (s : State) (i : HistIndex) (b : Byte) : (s.writeHist i b).readHist i = b := by
  rw [State.readHist_eq]
  exact Memory.lookup_write_fill _ _ _ _

theorem State.readHist_writeHist_ne (s : State) {i j : HistIndex} (h : i ≠ j) (b : Byte) :
    (s.writeHist j b).readHist i = s.readHist i := by
  have : i.toNat ≠ j.toNat := fun e => h (BitVec.eq_of_toNat_eq e)
  simp [State.readHist, State.writeHist, Memory.lookup_write_ne this]

/-! ### Writes keep the memories' form -/

theorem State.memWf_writeImg {s : State} {a : Nat} (b : Byte) (ha : a < s.params.cap) (h : s.memWf = true) :
    (s.writeImg a b).memWf = true := by
  simp only [State.memWf, Bool.and_eq_true] at h ⊢
  exact ⟨⟨Memory.wf_write b ha h.1.1, h.1.2⟩, h.2⟩

theorem State.memWf_writeHist {s : State} {i : HistIndex} (b : Byte) (hi : i.toNat < s.params.N)
    (h : s.memWf = true) : (s.writeHist i b).memWf = true := by
  simp only [State.memWf, Bool.and_eq_true] at h ⊢
  exact ⟨⟨h.1.1, Memory.wf_write b hi h.1.2⟩, h.2⟩

theorem State.memWf_writeSubj {s : State} {i : Nat} (b : Byte) (hi : i < 256) (h : s.memWf = true) :
    (s.writeSubj i b).memWf = true := by
  simp only [State.memWf, Bool.and_eq_true] at h ⊢
  exact ⟨h.1, Memory.wf_write b hi h.2⟩

end Sys2Proof.Machine
end

