-- ==== Sys2Proof/Laws/Ops.lean ====
section
/-!
SUPPORT. What each shared operation can do, said once: the parameters' bounds, busy and the start commands, the bit
reader, the symbol walk, the window index, the step's choice of a move.
-/

namespace Sys2Proof.Machine

open Sys2Proof.Config (Params)

/-! ### Parameters (00_scope.md R9, R10) -/

/-- What R10's check gives, spelt out. -/
theorem params_bounds (p : Params) :
    p.N = 2 ^ Nat.log2 p.N ∧ 128 ≤ p.N ∧ p.N ≤ 4096 ∧ 3 ≤ p.F ∧ p.F ≤ 255 ∧ p.F < p.N ∧
      p.val.threshold + 1 ≤ p.F ∧ 6 ≤ p.cap ∧ p.cap ≤ 0xFFFFFFFF := by
  have h := p.property
  simp only [Config.RawParams.ok, Bool.and_eq_true, decide_eq_true_eq, beq_iff_eq] at h
  obtain ⟨⟨⟨⟨⟨⟨⟨⟨h1, h2⟩, h3⟩, h4⟩, h5⟩, h6⟩, h7⟩, h8⟩, h9⟩ := h
  exact ⟨h1, h2, h3, h4, h5, h6, h7, h8, h9⟩

/-- The alphabet has 257 to 511 symbols, and the tables are sized by it. -/
theorem params_alphabet (p : Params) :
    257 ≤ p.nChar ∧ p.nChar ≤ 511 ∧ p.T = 2 * p.nChar - 1 ∧ p.root = p.T - 1 := by
  have h := params_bounds p
  have e : p.nChar = 256 - p.val.threshold + p.F := rfl
  exact ⟨by omega, by omega, rfl, rfl⟩

/-- A window index is below N. -/
theorem histIndex_toNat (p : Params) (n : Nat) : (histIndex p n).toNat = n % p.N := by
  have h := params_bounds p
  have hlt : n % p.N < p.N := Nat.mod_lt _ (by omega)
  simp only [histIndex, BitVec.toNat_ofNat]
  exact Nat.mod_eq_of_lt (by omega)

theorem histIndex_lt (p : Params) (n : Nat) : (histIndex p n).toNat < p.N := by
  have h := params_bounds p
  rw [histIndex_toNat]
  exact Nat.mod_lt _ (by omega)

/-! ### Error entry -/

/-- The shared error entry is R255's, with R250's code. -/
theorem State.raise_eq_inError (s : State) (e : ErrCode) (o x a : Word) : s.raise e o x a = s.inError e.code o x a := rfl

theorem State.consumeByte_eq_byteTaken (s : State) : s.consumeByte = s.byteTaken := rfl

/-- `at` after the consumption is the count before it. -/
@[simp] theorem State.at_consumeByte (s : State) : s.consumeByte.at = s.fr.consumed := by
  simp [State.at]

/-! ### Busy and the start commands (40_host_commands.md R112 to R115) -/

theorem State.busy_iff (s : State) :
    s.busy = true ↔ s.ctl.phase = .frame ∨ s.ctl.phase = .decode ∨ s.ctl.phase = .check := by
  cases h : s.ctl.phase <;> simp [State.busy, h]

theorem State.start_busy {s : State} (h : s.busy = true) (k : Bool) (m : Mode) (p : Phase) :
    s.start k m p = s.refuse := by simp [State.start, h]

theorem State.start_idle {s : State} (h : s.busy = false) (k : Bool) (m : Mode) (p : Phase) :
    s.start k m p = { s.startClear k with ctl := ⟨p, m, .soh, .env⟩ } := by simp [State.start, h]

/-! ### The bit reader (42_lzhuf.md R182) -/

/-- A bit is read exactly where one is left, and only the position moves. -/
theorem State.getBit_spec (s : State) :
    (s.dec.bitpos < s.bodyBits ∧ s.getBit = .ok (s.bodyBit s.dec.bitpos, s.skipBit)) ∨
      (s.bodyBits ≤ s.dec.bitpos ∧ s.getBit = .error s) := by
  unfold State.getBit
  split
  · exact .inl ⟨‹_›, rfl⟩
  · exact .inr ⟨by omega, rfl⟩

@[simp] theorem State.skipBit_bodyBits (s : State) : s.skipBit.bodyBits = s.bodyBits := rfl

@[simp] theorem State.skipBit_bodyBit (s : State) (k : Nat) : s.skipBit.bodyBit k = s.bodyBit k := rfl

/-- `s` with the bit position moved. -/
def State.atBit (s : State) (k : Nat) : State := { s with dec := { s.dec with bitpos := k } }

theorem State.skipBit_atBit (s : State) (k : Nat) : s.skipBit.atBit k = s.atBit k := rfl

theorem State.atBit_self (s : State) : s.atBit s.dec.bitpos = s := rfl

/-- GetBits(n) moves the position by n within the body and changes nothing else. -/
theorem State.getBits_ok : ∀ {n v : Nat} {s s' : State} {w : Nat}, State.getBits n v s = .ok (w, s') →
    s' = s.atBit (s.dec.bitpos + n) ∧ (n = 0 ∨ s.dec.bitpos + n ≤ s.bodyBits)
  | 0, v, s, s', w, h => by
    simp only [State.getBits, Except.ok.injEq, Prod.mk.injEq] at h
    exact ⟨h.2.symm, .inl rfl⟩
  | n + 1, v, s, s', w, h => by
    rcases State.getBit_spec s with ⟨hb, e⟩ | ⟨_, e⟩
    · simp only [State.getBits, e] at h
      obtain ⟨h1, h2⟩ := State.getBits_ok h
      rw [State.skipBit_atBit] at h1
      simp only [State.skipBit_dec, State.skipBit_bodyBits] at h1 h2
      exact ⟨by rw [h1]; congr 1; omega, .inr (by rcases h2 with h2 | h2 <;> omega)⟩
    · simp [State.getBits, e] at h

/-- Where GetBits runs out, every bit of the body has been read and nothing else changed (R183). -/
theorem State.getBits_error : ∀ {n v : Nat} {s s' : State}, s.dec.bitpos ≤ s.bodyBits →
    State.getBits n v s = .error s' → s' = s.atBit s.bodyBits ∧ s.bodyBits < s.dec.bitpos + n
  | 0, v, s, s', _, h => by simp [State.getBits] at h
  | n + 1, v, s, s', hle, h => by
    rcases State.getBit_spec s with ⟨hb, e⟩ | ⟨hb, e⟩
    · simp only [State.getBits, e] at h
      obtain ⟨h1, h2⟩ := State.getBits_error (by simpa using hb) h
      rw [State.skipBit_atBit] at h1
      simp only [State.skipBit_dec, State.skipBit_bodyBits] at h1 h2
      exact ⟨h1, by omega⟩
    · simp only [State.getBits, e, Except.error.injEq] at h
      have : s.dec.bitpos = s.bodyBits := by omega
      exact ⟨by rw [← h, ← this]; rfl, by omega⟩

/-! ### The symbol walk (42_lzhuf.md R191) -/

/-- The walk consumes at most the bits that are left and changes nothing else. -/
theorem walkFrom_leaf : ∀ {left n : Nat} {s s' : State} {c : Nat}, walkFrom left n s = .leaf c s' →
    ∃ j, j ≤ left ∧ s' = s.atBit (s.dec.bitpos + j)
  | left, n, s, s', c, h => by
    unfold walkFrom at h
    split at h
    · cases h; exact ⟨0, Nat.zero_le _, rfl⟩
    · cases left with
      | zero => simp at h
      | succ left =>
        simp only at h
        split at h
        · simp at h
        · obtain ⟨j, hj, e⟩ := walkFrom_leaf h
          refine ⟨j + 1, by omega, ?_⟩
          rw [e, State.skipBit_atBit]
          simp only [State.skipBit_dec]
          congr 1
          omega

/-- A walk that runs out has read every bit that was left (R183). -/
theorem walkFrom_truncated : ∀ {left n : Nat} {s s' : State}, walkFrom left n s = .truncated s' →
    s' = s.atBit (s.dec.bitpos + left)
  | left, n, s, s', h => by
    unfold walkFrom at h
    split at h
    · simp at h
    · cases left with
      | zero => simp only [WalkResult.truncated.injEq] at h; exact h.symm
      | succ left =>
        simp only at h
        split at h
        · simp at h
        · have e := walkFrom_truncated h
          rw [e, State.skipBit_atBit]
          simp only [State.skipBit_dec]
          congr 1
          omega

/-! ### The tables' sizes -/

/-- Two tables of the same sizes. -/
def Huff.SameSize (h h' : Huff) : Prop :=
  h'.freq.length = h.freq.length ∧ h'.son.length = h.son.length ∧ h'.prnt.length = h.prnt.length

theorem Huff.SameSize.refl (h : Huff) : h.SameSize h := ⟨rfl, rfl, rfl⟩

theorem Huff.SameSize.trans {a b c : Huff} (h : a.SameSize b) (h' : b.SameSize c) : a.SameSize c :=
  ⟨h'.1.trans h.1, h'.2.1.trans h.2.1, h'.2.2.trans h.2.2⟩

theorem Huff.setFreq_sameSize {h h' : Huff} {k v : Nat} (e : h.setFreq k v = some h') : h.SameSize h' := by
  unfold Huff.setFreq at e
  split at e
  · cases e; exact ⟨by simp, rfl, rfl⟩
  · cases e

theorem Huff.setSon_sameSize {h h' : Huff} {k v : Nat} (e : h.setSon k v = some h') : h.SameSize h' := by
  unfold Huff.setSon at e
  split at e
  · cases e; exact ⟨rfl, by simp, rfl⟩
  · cases e

theorem Huff.setPrnt_sameSize {h h' : Huff} {k v : Nat} (e : h.setPrnt k v = some h') : h.SameSize h' := by
  unfold Huff.setPrnt at e
  split at e
  · cases e; exact ⟨rfl, rfl, by simp⟩
  · cases e

theorem Huff.setParent_sameSize {t : Nat} {h h' : Huff} {i p : Nat} (e : h.setParent t i p = some h') :
    h.SameSize h' := by
  unfold Huff.setParent at e
  split at e
  · cases e
  · next h1 e1 =>
    split at e
    · exact (Huff.setPrnt_sameSize e1).trans (Huff.setPrnt_sameSize e)
    · cases e; exact Huff.setPrnt_sameSize e1

/-! ### The step's choice of a move (log 2) -/

/-- A step is the engine's turn, or the agenda's first move. -/
theorem step_cases (s : State) :
    (s.agenda = [] ∧ step s = engineTurn s) ∨
    (∃ m rest, s.agenda = m :: rest ∧ m.enabled s = true ∧ step s = runMove m { s with agenda := rest }) ∨
    (∃ m rest, s.agenda = m :: rest ∧ m.enabled s = false ∧ step s = engineTurn s) := by
  unfold step stepOnce
  cases h : s.agenda with
  | nil => exact .inl ⟨rfl, rfl⟩
  | cons m rest =>
    cases e : m.enabled s with
    | true => exact .inr (.inl ⟨m, rest, rfl, e, by simp [e]⟩)
    | false => exact .inr (.inr ⟨m, rest, rfl, e, by simp [e]⟩)

/-- A host word always decodes, so a host step runs an instruction. -/
theorem runWord_host (op : HostOp) (s : State) : ∃ i, decode op.word = .instr i ∧ runWord op.word s = exec i s := by
  cases op <;> exact ⟨_, rfl, rfl⟩

/-- A framer word always decodes, so the turn at an offered byte runs the instruction of R88's table. -/
theorem runWord_frame (f : FState) (b : Byte) (s : State) :
    runWord (.frameByte (frameWord f b)) s = exec (decodeByte f b) s := by
  have h1 : (frameWord f b).extractLsb' 8 4 = f.code := by
    apply BitVec.eq_of_getLsbD_eq
    intro i hi
    simp only [frameWord, BitVec.getLsbD_extractLsb', BitVec.getLsbD_append]
    simp [hi]
  have h2 : (frameWord f b).extractLsb' 0 8 = b := by
    apply BitVec.eq_of_getLsbD_eq
    intro i hi
    simp only [frameWord, BitVec.getLsbD_extractLsb', BitVec.getLsbD_append]
    simp [hi]
  have h3 : FState.ofCode f.code = some f := by cases f <;> rfl
  simp only [runWord, decode, h1, h2, h3]

/-- ERR_ACTUAL of ImageOverflow is image_len + 1 wherever that fits 32 bits (41_framer.md R150). -/
theorem State.overflowActual_of_fits (s : State) (h : s.fr.imageLen ≠ 0xFFFFFFFF) :
    s.overflowActual = s.fr.imageLen + 1 := if_neg h

end Sys2Proof.Machine
end

