-- ==== Sys2Proof/Laws/Huffman.lean ====
section
/-!
SUPPORT. The initial tree (42_lzhuf.md R186): every entry of its tables, and that they hold a tree in the sense of
R190 for every parameter set.
-/

namespace Sys2Proof.Machine

open Sys2Proof.Config (Params)

/-! ### The frequencies of the internal nodes -/

/-- Entry k of a list of 16-bit values as a number. -/
def entry (l : List Half) (k : Nat) : Nat := (l.getD k 0).toNat

/-- The sum of a list of 16-bit values as numbers. -/
def total (l : List Half) : Nat := (l.map BitVec.toNat).sum

theorem total_append (l m : List Half) : total (l ++ m) = total l + total m := by simp [total]

/-- With the queue in front, each internal node's frequency is the sum of its two children's, none of which
overflows. -/
theorem pairSums_spec : ∀ (n : Nat) (q : List Half), n + 1 ≤ q.length → total q < 65536 →
    (pairSums n q).length = n ∧ (∀ x ∈ pairSums n q, x.toNat ≤ total q) ∧
    ∀ m, m < n → entry (q ++ pairSums n q) (q.length + m) =
      entry (q ++ pairSums n q) (2 * m) + entry (q ++ pairSums n q) (2 * m + 1)
  | 0, q, _, _ => by simp [pairSums]
  | n + 1, [], h, _ => by simp at h
  | n + 1, [a], h, _ => by simp at h
  | n + 1, a :: b :: rest, hl, ht => by
    have hab : (a + b).toNat = a.toNat + b.toNat := by
      simp only [total, List.map_cons, List.sum_cons] at ht
      rw [BitVec.toNat_add]
      exact Nat.mod_eq_of_lt (by omega)
    have htot : total (rest ++ [a + b]) = total (a :: b :: rest) := by
      rw [total_append]
      simp only [total, List.map_cons, List.map_nil, List.sum_cons, List.sum_nil, hab]
      omega
    have hlen : n + 1 ≤ (rest ++ [a + b]).length := by simp at hl ⊢; omega
    obtain ⟨h1, h2, h3⟩ := pairSums_spec n (rest ++ [a + b]) hlen (by omega)
    have e : a :: b :: rest ++ pairSums (n + 1) (a :: b :: rest) =
        a :: b :: ((rest ++ [a + b]) ++ pairSums n (rest ++ [a + b])) := by simp [pairSums]
    refine ⟨by simp [pairSums, h1], ?_, ?_⟩
    · intro x hx
      simp only [pairSums, List.mem_cons] at hx
      rcases hx with rfl | hx
      · rw [hab]; simp only [total, List.map_cons, List.sum_cons]; omega
      · rw [← htot]; exact h2 x hx
    · intro m hm
      rw [e]
      cases m with
      | zero =>
        simp only [List.length_cons, Nat.add_zero, Nat.mul_zero, Nat.zero_add, entry, List.getD_cons_succ,
          List.getD_cons_zero]
        rw [List.append_assoc, List.getD_append_right _ _ _ _ (le_refl _)]
        simp [hab]
      | succ m =>
        have h := h3 m (by omega)
        simp only [entry] at h ⊢
        have i1 : (a :: b :: rest).length + (m + 1) = (rest ++ [a + b]).length + m + 1 + 1 := by simp; omega
        have i2 : 2 * (m + 1) = 2 * m + 1 + 1 := by omega
        have i3 : 2 * (m + 1) + 1 = (2 * m + 1) + 1 + 1 := by omega
        rw [i1, i3, i2]
        simpa only [List.getD_cons_succ] using h

/-! ### The entries of the initial tables -/

/-- freq[k] of the initial tree, for a node. -/
def startFreq (p : Params) (k : Nat) : Nat :=
  entry (List.replicate p.nChar 1 ++ pairSums (p.T - p.nChar) (List.replicate p.nChar 1)) k

theorem startTotal (p : Params) : total (List.replicate p.nChar (1 : Half)) = p.nChar := by simp [total]

theorem startSums (p : Params) :
    (pairSums (p.T - p.nChar) (List.replicate p.nChar 1)).length = p.T - p.nChar ∧
    (∀ x ∈ pairSums (p.T - p.nChar) (List.replicate p.nChar 1), x.toNat ≤ p.nChar) ∧
    ∀ m, m < p.T - p.nChar → startFreq p (p.nChar + m) = startFreq p (2 * m) + startFreq p (2 * m + 1) := by
  have ha := params_alphabet p
  have h := pairSums_spec (p.T - p.nChar) (List.replicate p.nChar 1) (by simp; omega) (by rw [startTotal]; omega)
  rw [startTotal] at h
  simpa only [List.length_replicate, startFreq] using h

/-- Every leaf has frequency 1. -/
theorem startFreq_leaf (p : Params) {k : Nat} (h : k < p.nChar) : startFreq p k = 1 := by
  unfold startFreq entry
  rw [List.getD_append _ _ _ _ (by simpa using h)]
  simp [h]

/-- An internal node carries the sum of nodes 2m and 2m + 1. -/
theorem startFreq_internal (p : Params) {m : Nat} (h : m < p.T - p.nChar) :
    startFreq p (p.nChar + m) = startFreq p (2 * m) + startFreq p (2 * m + 1) := (startSums p).2.2 m h

theorem startFreq_le (p : Params) (k : Nat) : startFreq p k ≤ p.nChar := by
  have ha := params_alphabet p
  unfold startFreq entry
  rw [List.getD_eq_getElem?_getD]
  cases e : (List.replicate p.nChar (1 : Half) ++ pairSums (p.T - p.nChar) (List.replicate p.nChar 1))[k]? with
  | none => simp
  | some x =>
    have hx := List.mem_of_getElem? e
    simp only [List.mem_append, List.mem_replicate] at hx
    rcases hx with ⟨_, rfl⟩ | hx
    · simp; omega
    · simpa using (startSums p).2.1 x hx

theorem startFreq_step (p : Params) : ∀ k, k + 1 < p.T → startFreq p k ≤ startFreq p (k + 1) := by
  have ha := params_alphabet p
  intro k
  induction k using Nat.strongRecOn with
  | ind k ih =>
    intro hk
    by_cases h1 : k + 1 < p.nChar
    · rw [startFreq_leaf p h1, startFreq_leaf p (by omega)]
    · by_cases h2 : k < p.nChar
      · have e : k + 1 = p.nChar + 0 := by omega
        rw [e, startFreq_internal p (by omega), startFreq_leaf p h2, startFreq_leaf p (by omega),
          startFreq_leaf p (by omega)]
        omega
      · obtain ⟨m, rfl⟩ : ∃ m, k = p.nChar + m := ⟨k - p.nChar, by omega⟩
        rw [Nat.add_assoc, startFreq_internal p (by omega), startFreq_internal p (by omega)]
        have a1 := ih (2 * m) (by omega) (by omega)
        have a2 := ih (2 * m + 1) (by omega) (by omega)
        have a3 := ih (2 * m + 1 + 1) (by omega) (by omega)
        have e1 : 2 * (m + 1) = 2 * m + 1 + 1 := by omega
        rw [e1]
        omega

theorem startFreq_pos (p : Params) : ∀ k, k < p.T → 1 ≤ startFreq p k
  | 0, _ => by rw [startFreq_leaf p (by have := params_alphabet p; omega)]
  | k + 1, h => Nat.le_trans (startFreq_pos p k (by omega)) (startFreq_step p k h)

theorem startHuff_freqAt (p : Params) {k : Nat} (h : k < p.T) :
    (startHuff p).freqAt k = some (startFreq p k) := by
  have ha := params_alphabet p
  have hl : k < (List.replicate p.nChar (1 : Half) ++
      pairSums (p.T - p.nChar) (List.replicate p.nChar 1)).length := by
    rw [List.length_append, (startSums p).1, List.length_replicate]; omega
  simp only [Huff.freqAt, startHuff, startFreq, entry]
  rw [List.getElem?_append_left hl, List.getElem?_eq_getElem hl, List.getD_eq_getElem _ _ hl]
  rfl

theorem startHuff_freqAt_T (p : Params) : (startHuff p).freqAt p.T = some 0xFFFF := by
  have ha := params_alphabet p
  have hl : (List.replicate p.nChar (1 : Half) ++
      pairSums (p.T - p.nChar) (List.replicate p.nChar 1)).length = p.T := by
    rw [List.length_append, (startSums p).1, List.length_replicate]; omega
  simp only [Huff.freqAt, startHuff]
  rw [List.getElem?_append_right (by omega), hl]
  simp

theorem startHuff_sonAt (p : Params) (k : Nat) :
    (startHuff p).sonAt k =
      if k < p.nChar then some (k + p.T) else if k < p.T then some (2 * (k - p.nChar)) else none := by
  have ha := params_alphabet p
  simp only [Huff.sonAt, startHuff]
  split
  · next h =>
    rw [List.getElem?_append_left (by simpa using h)]
    simp [h]
    omega
  · next h =>
    rw [List.getElem?_append_right (by simp; omega)]
    simp only [List.length_map, List.length_range, List.getElem?_map]
    split
    · next h' =>
      rw [List.getElem?_range (by omega)]
      simp
      omega
    · next h' =>
      rw [List.getElem?_eq_none (by simp; omega)]
      simp

theorem startHuff_prntAt_node (p : Params) {k : Nat} (h : k < p.root) :
    (startHuff p).prntAt k = some (p.nChar + k / 2) := by
  have ha := params_alphabet p
  simp only [Huff.prntAt, startHuff]
  rw [List.getElem?_append_left (by simp; omega), List.getElem?_append_left (by simpa using h)]
  simp [h]
  omega

theorem startHuff_prntAt_root (p : Params) : (startHuff p).prntAt p.root = some 0 := by
  simp only [Huff.prntAt, startHuff]
  rw [List.getElem?_append_left (by simp), List.getElem?_append_right (by simp)]
  simp

theorem startHuff_prntAt_leaf (p : Params) {c : Nat} (h : c < p.nChar) :
    (startHuff p).prntAt (p.T + c) = some c := by
  have ha := params_alphabet p
  simp only [Huff.prntAt, startHuff]
  have e : p.T + c = p.root + 1 + c := by omega
  rw [List.getElem?_append_right (by simp; omega)]
  simp [e, h]
  omega

/-- The initial tables hold a tree, whatever the parameters. -/
theorem startHuff_treeSound (p : Params) : TreeSound p (startHuff p) := by
  have ha := params_alphabet p
  have hs := startSums p
  refine
    { freq_length := ?_, son_length := ?_, prnt_length := ?_, rising := ?_, positive := ?_,
      sentinel := startHuff_freqAt_T p, root_bound := ?_, internal := ?_, leaf := ?_, symbol := ?_, parent := ?_,
      root_parent := startHuff_prntAt_root p }
  · show (List.replicate p.nChar 1 ++ pairSums (p.T - p.nChar) (List.replicate p.nChar 1) ++ [0xFFFF]).length = _
    rw [List.length_append, List.length_append, hs.1, List.length_replicate]
    simp only [List.length_cons, List.length_nil]
    omega
  · simp [startHuff]; omega
  · simp [startHuff]; omega
  · intro k f g hk hf hg
    rw [startHuff_freqAt p (by omega)] at hf
    rw [startHuff_freqAt p hk] at hg
    cases hf; cases hg
    exact startFreq_step p k hk
  · intro k f hk hf
    rw [startHuff_freqAt p hk] at hf
    cases hf
    exact startFreq_pos p k hk
  · intro f hf
    rw [startHuff_freqAt p (by omega)] at hf
    cases hf
    have := startFreq_le p p.root
    simp only [Config.MAX_FREQ]
    omega
  · intro k c hk hc
    rw [startHuff_sonAt] at hk
    split at hk
    · cases hk; omega
    · split at hk
      · obtain ⟨m, rfl⟩ : ∃ m, k = p.nChar + m := ⟨k - p.nChar, by omega⟩
        simp only [Option.some.injEq] at hk
        subst hk
        have e : p.nChar + m - p.nChar = m := by omega
        rw [e] at hc ⊢
        refine ⟨by omega, ?_, ?_, ?_⟩
        · rw [startHuff_prntAt_node p (by omega)]; congr 1; omega
        · rw [startHuff_prntAt_node p (by omega)]; congr 1; omega
        · intro f g hf hg
          rw [startHuff_freqAt p (by omega)] at hf hg ⊢
          cases hf; cases hg
          rw [startFreq_internal p (by omega)]
      · cases hk
  · intro k c hk hc
    rw [startHuff_sonAt] at hk
    split at hk
    · next h =>
      cases hk
      exact ⟨by omega, by rw [Nat.add_comm, startHuff_prntAt_leaf p h]⟩
    · split at hk
      · cases hk; omega
      · cases hk
  · intro c hc
    refine ⟨c, startHuff_prntAt_leaf p hc, ?_⟩
    rw [startHuff_sonAt, if_pos hc, Nat.add_comm]
  · intro k hk
    refine ⟨p.nChar + k / 2, 2 * (k / 2), startHuff_prntAt_node p hk, ?_, by omega⟩
    rw [startHuff_sonAt, if_neg (by omega), if_pos (by omega)]
    congr 2
    omega

/-- A tree with other frequencies is a tree where they satisfy what TreeSound asks of frequencies. -/
theorem TreeSound.with_freq {p : Params} {h : Huff} (t : TreeSound p h) (F : List Half)
    (length : F.length = p.T + 1)
    (rising : ∀ k f g, k + 1 < p.T → Huff.freqAt { h with freq := F } k = some f →
      Huff.freqAt { h with freq := F } (k + 1) = some g → f ≤ g)
    (positive : ∀ k f, k < p.T → Huff.freqAt { h with freq := F } k = some f → 1 ≤ f)
    (sentinel : Huff.freqAt { h with freq := F } p.T = some 0xFFFF)
    (root_bound : ∀ f, Huff.freqAt { h with freq := F } p.root = some f → f ≤ Config.MAX_FREQ)
    (sum : ∀ k c f g, h.sonAt k = some c → c < p.T → Huff.freqAt { h with freq := F } c = some f →
      Huff.freqAt { h with freq := F } (c + 1) = some g → Huff.freqAt { h with freq := F } k = some (f + g)) :
    TreeSound p { h with freq := F } where
  freq_length := length
  son_length := t.son_length
  prnt_length := t.prnt_length
  rising := rising
  positive := positive
  sentinel := sentinel
  root_bound := root_bound
  internal k c hc hlt :=
    have i := t.internal k c hc hlt
    ⟨i.1, i.2.1, i.2.2.1, fun f g hf hg => sum k c f g hc hlt hf hg⟩
  leaf := t.leaf
  symbol := t.symbol
  parent := t.parent
  root_parent := t.root_parent

end Sys2Proof.Machine
end

