-- ==== Sys2Proof/Laws/PerInstr.lean ====
section
/-!
SUPPORT. The family EncodeWord: the word that `encode` writes for a well-formed instruction is a word of one of the
instruction's rows in spec/opcode_table.json, in the row's format (a row matches w when `w & mask = match`).
-/

namespace Sys2Proof.Laws.EncodeWord

/-- The formats of 30_encoding.md, as the table names them, and the number each matches. -/
inductive Format where
  | cmd | mmioRd | mmioWr | frameByte | lzhSym | lzhPos
deriving DecidableEq, Repr

/-- The format and the number of an encoded word. -/
def numberOf : Raw → Format × Nat
  | .cmd w => (.cmd, w.toNat)
  | .mmioRd offset => (.mmioRd, offset.toNat)
  | .mmioWr offset _ => (.mmioWr, offset.toNat)
  | .frameByte w => (.frameByte, w.toNat)
  | .lzhSym w => (.lzhSym, w.toNat)
  | .lzhPos x => (.lzhPos, x.toNat)

/-- The rows of an instruction: format, and (match, mask) of each row, from the opcode table. -/
def rowsOf : Instr → Format × List (Nat × Nat)
  | .nop => (.cmd, [(0x0, 0xF)])
  | .run => (.cmd, [(0x1, 0xF)])
  | .frameOnly => (.cmd, [(0x2, 0xF)])
  | .decodeOnly => (.cmd, [(0x3, 0xF)])
  | .abort => (.cmd, [(0x4, 0xF)])
  | .clear => (.cmd, [(0x5, 0xF)])
  | .cmdReserved6 => (.cmd, [(0x6, 0xF)])
  | .cmdReserved7 => (.cmd, [(0x7, 0xF)])
  | .cmdReserved8 => (.cmd, [(0x8, 0xF)])
  | .cmdReserved9 => (.cmd, [(0x9, 0xF)])
  | .cmdReservedA => (.cmd, [(0xA, 0xF)])
  | .cmdReservedB => (.cmd, [(0xB, 0xF)])
  | .cmdReservedC => (.cmd, [(0xC, 0xF)])
  | .cmdReservedD => (.cmd, [(0xD, 0xF)])
  | .cmdReservedE => (.cmd, [(0xE, 0xF)])
  | .cmdReservedF => (.cmd, [(0xF, 0xF)])
  | .rdId => (.mmioRd, [(0x0, 0xFFC)])
  | .rdVersion => (.mmioRd, [(0x4, 0xFFC)])
  | .rdCtrl => (.mmioRd, [(0x8, 0xFFC)])
  | .rdCmd => (.mmioRd, [(0xC, 0xFFC)])
  | .rdStatus => (.mmioRd, [(0x10, 0xFFC)])
  | .rdErrCode => (.mmioRd, [(0x14, 0xFFC)])
  | .rdErrOffset => (.mmioRd, [(0x18, 0xFFC)])
  | .rdErrExpected => (.mmioRd, [(0x1C, 0xFFC)])
  | .rdErrActual => (.mmioRd, [(0x20, 0xFFC)])
  | .rdConsumed => (.mmioRd, [(0x24, 0xFFC)])
  | .rdHeader => (.mmioRd, [(0x28, 0xFFC)])
  | .rdResumeOffset => (.mmioRd, [(0x2C, 0xFFC)])
  | .rdLeadLo => (.mmioRd, [(0x30, 0xFFC)])
  | .rdLeadHi => (.mmioRd, [(0x34, 0xFFC)])
  | .rdBlockCount => (.mmioRd, [(0x38, 0xFFC)])
  | .rdChecksum => (.mmioRd, [(0x3C, 0xFFC)])
  | .rdImageLen => (.mmioRd, [(0x40, 0xFFC)])
  | .rdImgAddr => (.mmioRd, [(0x44, 0xFFC)])
  | .rdImgData => (.mmioRd, [(0x48, 0xFFC)])
  | .rdEnvCrc => (.mmioRd, [(0x4C, 0xFFC)])
  | .rdDeclaredLen => (.mmioRd, [(0x50, 0xFFC)])
  | .rdOutCount => (.mmioRd, [(0x54, 0xFFC)])
  | .rdIrqStatus => (.mmioRd, [(0x58, 0xFFC)])
  | .rdEngineState => (.mmioRd, [(0x5C, 0xFFC)])
  | .rdBitpos => (.mmioRd, [(0x60, 0xFFC)])
  | .rdHistWpos => (.mmioRd, [(0x64, 0xFFC)])
  | .rdParam0 => (.mmioRd, [(0x68, 0xFFC)])
  | .rdParam1 => (.mmioRd, [(0x6C, 0xFFC)])
  | .rdParam2 => (.mmioRd, [(0x70, 0xFFC)])
  | .rdParam3 => (.mmioRd, [(0x74, 0xFFC)])
  | .rdSubject _ => (.mmioRd, [(0x100, 0xF00)])
  | .rdReserved078 _ => (.mmioRd, [(0x78, 0xFF8)])
  | .rdReserved080 _ => (.mmioRd, [(0x80, 0xF80)])
  | .rdReserved200 _ => (.mmioRd, [(0x200, 0xE00)])
  | .rdReserved400 _ => (.mmioRd, [(0x400, 0xC00)])
  | .rdReserved800 _ => (.mmioRd, [(0x800, 0x800)])
  | .wrId _ => (.mmioWr, [(0x0, 0xFFC)])
  | .wrVersion _ => (.mmioWr, [(0x4, 0xFFC)])
  | .wrCtrl _ => (.mmioWr, [(0x8, 0xFFC)])
  | .wrCmd _ => (.mmioWr, [(0xC, 0xFFC)])
  | .wrStatus _ => (.mmioWr, [(0x10, 0xFFC)])
  | .wrErrCode _ => (.mmioWr, [(0x14, 0xFFC)])
  | .wrErrOffset _ => (.mmioWr, [(0x18, 0xFFC)])
  | .wrErrExpected _ => (.mmioWr, [(0x1C, 0xFFC)])
  | .wrErrActual _ => (.mmioWr, [(0x20, 0xFFC)])
  | .wrConsumed _ => (.mmioWr, [(0x24, 0xFFC)])
  | .wrHeader _ => (.mmioWr, [(0x28, 0xFFC)])
  | .wrResumeOffset _ => (.mmioWr, [(0x2C, 0xFFC)])
  | .wrLeadLo _ => (.mmioWr, [(0x30, 0xFFC)])
  | .wrLeadHi _ => (.mmioWr, [(0x34, 0xFFC)])
  | .wrBlockCount _ => (.mmioWr, [(0x38, 0xFFC)])
  | .wrChecksum _ => (.mmioWr, [(0x3C, 0xFFC)])
  | .wrImageLen _ => (.mmioWr, [(0x40, 0xFFC)])
  | .wrImgAddr _ => (.mmioWr, [(0x44, 0xFFC)])
  | .wrImgData _ => (.mmioWr, [(0x48, 0xFFC)])
  | .wrEnvCrc _ => (.mmioWr, [(0x4C, 0xFFC)])
  | .wrDeclaredLen _ => (.mmioWr, [(0x50, 0xFFC)])
  | .wrOutCount _ => (.mmioWr, [(0x54, 0xFFC)])
  | .wrIrqStatus _ => (.mmioWr, [(0x58, 0xFFC)])
  | .wrEngineState _ => (.mmioWr, [(0x5C, 0xFFC)])
  | .wrBitpos _ => (.mmioWr, [(0x60, 0xFFC)])
  | .wrHistWpos _ => (.mmioWr, [(0x64, 0xFFC)])
  | .wrParam0 _ => (.mmioWr, [(0x68, 0xFFC)])
  | .wrParam1 _ => (.mmioWr, [(0x6C, 0xFFC)])
  | .wrParam2 _ => (.mmioWr, [(0x70, 0xFFC)])
  | .wrParam3 _ => (.mmioWr, [(0x74, 0xFFC)])
  | .wrSubject _ _ => (.mmioWr, [(0x100, 0xF00)])
  | .wrReserved078 _ _ => (.mmioWr, [(0x78, 0xFF8)])
  | .wrReserved080 _ _ => (.mmioWr, [(0x80, 0xF80)])
  | .wrReserved200 _ _ => (.mmioWr, [(0x200, 0xE00)])
  | .wrReserved400 _ _ => (.mmioWr, [(0x400, 0xC00)])
  | .wrReserved800 _ _ => (.mmioWr, [(0x800, 0x800)])
  | .soh => (.frameByte, [(0x1, 0xFFF)])
  | .errMissingHeaderMarker _ => (.frameByte, [(0x0, 0xFFF), (0x2, 0xFFE), (0x4, 0xFFC), (0x8, 0xFF8), (0x10, 0xFF0), (0x20, 0xFE0), (0x40, 0xFC0), (0x80, 0xF80)])
  | .hlen _ => (.frameByte, [(0x102, 0xFFE), (0x104, 0xFFC), (0x108, 0xFF8), (0x110, 0xFF0), (0x120, 0xFE0), (0x140, 0xFC0), (0x180, 0xF80)])
  | .errMalformedHeaderR1 _ => (.frameByte, [(0x100, 0xFFE)])
  | .subjNul => (.frameByte, [(0x200, 0xFFF)])
  | .subjByte _ => (.frameByte, [(0x201, 0xFFF), (0x202, 0xFFE), (0x204, 0xFFC), (0x208, 0xFF8), (0x210, 0xFF0), (0x220, 0xFE0), (0x240, 0xFC0), (0x280, 0xF80)])
  | .offsNul => (.frameByte, [(0x300, 0xFFF)])
  | .offsDigit _ => (.frameByte, [(0x330, 0xFF8), (0x338, 0xFFE)])
  | .errMalformedHeaderR4 _ => (.frameByte, [(0x301, 0xFFF), (0x302, 0xFFE), (0x304, 0xFFC), (0x308, 0xFF8), (0x310, 0xFF0), (0x320, 0xFF0), (0x33A, 0xFFE), (0x33C, 0xFFC), (0x340, 0xFC0), (0x380, 0xF80)])
  | .resStx => (.frameByte, [(0x402, 0xFFF)])
  | .errMalformedResumeStx _ => (.frameByte, [(0x400, 0xFFE), (0x403, 0xFFF), (0x404, 0xFFC), (0x408, 0xFF8), (0x410, 0xFF0), (0x420, 0xFE0), (0x440, 0xFC0), (0x480, 0xF80)])
  | .resLen => (.frameByte, [(0x506, 0xFFF)])
  | .errMalformedResumeLen _ => (.frameByte, [(0x500, 0xFFC), (0x504, 0xFFE), (0x507, 0xFFF), (0x508, 0xFF8), (0x510, 0xFF0), (0x520, 0xFE0), (0x540, 0xFC0), (0x580, 0xF80)])
  | .leadByte _ => (.frameByte, [(0x600, 0xF00)])
  | .blkStx => (.frameByte, [(0x702, 0xFFF)])
  | .blkEot => (.frameByte, [(0x704, 0xFFF)])
  | .errUnexpectedBlockMarker _ => (.frameByte, [(0x700, 0xFFE), (0x703, 0xFFF), (0x705, 0xFFF), (0x706, 0xFFE), (0x708, 0xFF8), (0x710, 0xFF0), (0x720, 0xFE0), (0x740, 0xFC0), (0x780, 0xF80)])
  | .blkLen _ => (.frameByte, [(0x800, 0xF80), (0x880, 0xFC0), (0x8C0, 0xFE0), (0x8E0, 0xFF0), (0x8F0, 0xFF8), (0x8F8, 0xFFE), (0x8FA, 0xFFF)])
  | .errBlockLengthInvalid _ => (.frameByte, [(0x8FB, 0xFFF), (0x8FC, 0xFFC)])
  | .blkData _ => (.frameByte, [(0x900, 0xF00)])
  | .csum _ => (.frameByte, [(0xA00, 0xF00)])
  | .lit _ => (.lzhSym, [(0x0, 0x100)])
  | .matchSym _ => (.lzhSym, [(0x100, 0x100)])
  | .pos3 _ => (.lzhPos, [(0x0, 0xE0)])
  | .pos4 _ => (.lzhPos, [(0x20, 0xE0), (0x40, 0xF0)])
  | .pos5 _ => (.lzhPos, [(0x50, 0xF0), (0x60, 0xE0), (0x80, 0xF0)])
  | .pos6 _ => (.lzhPos, [(0x90, 0xF0), (0xA0, 0xE0)])
  | .pos7 _ => (.lzhPos, [(0xC0, 0xE0), (0xE0, 0xF0)])
  | .pos8 _ => (.lzhPos, [(0xF0, 0xF0)])

/-- A number is a word of one of the rows. -/
def inRows (rows : List (Nat × Nat)) (n : Nat) : Bool := rows.any (fun r => n &&& r.2 == r.1)

/-- The encoded word of an instruction is of its rows' format and of one of its rows. -/
def fits (i : Instr) : Bool :=
  decide ((numberOf (encode i)).1 = (rowsOf i).1) && inRows (rowsOf i).2 (numberOf (encode i)).2

def Statement (i : Instr) : Prop := i.wf = true → fits i = true

theorem nop : Statement .nop := fun _ => by decide

theorem run : Statement .run := fun _ => by decide

theorem frameOnly : Statement .frameOnly := fun _ => by decide

theorem decodeOnly : Statement .decodeOnly := fun _ => by decide

theorem abort : Statement .abort := fun _ => by decide

theorem clear : Statement .clear := fun _ => by decide

theorem cmdReserved6 : Statement .cmdReserved6 := fun _ => by decide

theorem cmdReserved7 : Statement .cmdReserved7 := fun _ => by decide

theorem cmdReserved8 : Statement .cmdReserved8 := fun _ => by decide

theorem cmdReserved9 : Statement .cmdReserved9 := fun _ => by decide

theorem cmdReservedA : Statement .cmdReservedA := fun _ => by decide

theorem cmdReservedB : Statement .cmdReservedB := fun _ => by decide

theorem cmdReservedC : Statement .cmdReservedC := fun _ => by decide

theorem cmdReservedD : Statement .cmdReservedD := fun _ => by decide

theorem cmdReservedE : Statement .cmdReservedE := fun _ => by decide

theorem cmdReservedF : Statement .cmdReservedF := fun _ => by decide

theorem rdId : Statement .rdId := fun _ => by decide

theorem rdVersion : Statement .rdVersion := fun _ => by decide

theorem rdCtrl : Statement .rdCtrl := fun _ => by decide

theorem rdCmd : Statement .rdCmd := fun _ => by decide

theorem rdStatus : Statement .rdStatus := fun _ => by decide

theorem rdErrCode : Statement .rdErrCode := fun _ => by decide

theorem rdErrOffset : Statement .rdErrOffset := fun _ => by decide

theorem rdErrExpected : Statement .rdErrExpected := fun _ => by decide

theorem rdErrActual : Statement .rdErrActual := fun _ => by decide

theorem rdConsumed : Statement .rdConsumed := fun _ => by decide

theorem rdHeader : Statement .rdHeader := fun _ => by decide

theorem rdResumeOffset : Statement .rdResumeOffset := fun _ => by decide

theorem rdLeadLo : Statement .rdLeadLo := fun _ => by decide

theorem rdLeadHi : Statement .rdLeadHi := fun _ => by decide

theorem rdBlockCount : Statement .rdBlockCount := fun _ => by decide

theorem rdChecksum : Statement .rdChecksum := fun _ => by decide

theorem rdImageLen : Statement .rdImageLen := fun _ => by decide

theorem rdImgAddr : Statement .rdImgAddr := fun _ => by decide

theorem rdImgData : Statement .rdImgData := fun _ => by decide

theorem rdEnvCrc : Statement .rdEnvCrc := fun _ => by decide

theorem rdDeclaredLen : Statement .rdDeclaredLen := fun _ => by decide

theorem rdOutCount : Statement .rdOutCount := fun _ => by decide

theorem rdIrqStatus : Statement .rdIrqStatus := fun _ => by decide

theorem rdEngineState : Statement .rdEngineState := fun _ => by decide

theorem rdBitpos : Statement .rdBitpos := fun _ => by decide

theorem rdHistWpos : Statement .rdHistWpos := fun _ => by decide

theorem rdParam0 : Statement .rdParam0 := fun _ => by decide

theorem rdParam1 : Statement .rdParam1 := fun _ => by decide

theorem rdParam2 : Statement .rdParam2 := fun _ => by decide

theorem rdParam3 : Statement .rdParam3 := fun _ => by decide

theorem rdSubject (k : BitVec 6) : Statement (.rdSubject k) :=
  (by decide +kernel : ∀ k : BitVec 6, (Instr.rdSubject k).wf = true → fits (.rdSubject k) = true) k

theorem rdReserved078 (k : BitVec 1) : Statement (.rdReserved078 k) :=
  (by decide +kernel : ∀ k : BitVec 1, (Instr.rdReserved078 k).wf = true → fits (.rdReserved078 k) = true) k

theorem rdReserved080 (k : BitVec 5) : Statement (.rdReserved080 k) :=
  (by decide +kernel : ∀ k : BitVec 5, (Instr.rdReserved080 k).wf = true → fits (.rdReserved080 k) = true) k

theorem rdReserved200 (k : BitVec 7) : Statement (.rdReserved200 k) :=
  (by decide +kernel : ∀ k : BitVec 7, (Instr.rdReserved200 k).wf = true → fits (.rdReserved200 k) = true) k

theorem rdReserved400 (k : BitVec 8) : Statement (.rdReserved400 k) :=
  (by decide +kernel : ∀ k : BitVec 8, (Instr.rdReserved400 k).wf = true → fits (.rdReserved400 k) = true) k

theorem rdReserved800 (k : BitVec 9) : Statement (.rdReserved800 k) :=
  (by decide +kernel : ∀ k : BitVec 9, (Instr.rdReserved800 k).wf = true → fits (.rdReserved800 k) = true) k

theorem wrId (v : Word) : Statement (.wrId v) := fun _ =>
  (by decide : (decide (Format.mmioWr = Format.mmioWr) && inRows [(0x0, 0xFFC)] (0x000 : BitVec 12).toNat) = true)

theorem wrVersion (v : Word) : Statement (.wrVersion v) := fun _ =>
  (by decide : (decide (Format.mmioWr = Format.mmioWr) && inRows [(0x4, 0xFFC)] (0x004 : BitVec 12).toNat) = true)

theorem wrCtrl (v : Word) : Statement (.wrCtrl v) := fun _ =>
  (by decide : (decide (Format.mmioWr = Format.mmioWr) && inRows [(0x8, 0xFFC)] (0x008 : BitVec 12).toNat) = true)

theorem wrCmd (v : Word) : Statement (.wrCmd v) := fun _ =>
  (by decide : (decide (Format.mmioWr = Format.mmioWr) && inRows [(0xC, 0xFFC)] (0x00C : BitVec 12).toNat) = true)

theorem wrStatus (v : Word) : Statement (.wrStatus v) := fun _ =>
  (by decide : (decide (Format.mmioWr = Format.mmioWr) && inRows [(0x10, 0xFFC)] (0x010 : BitVec 12).toNat) = true)

theorem wrErrCode (v : Word) : Statement (.wrErrCode v) := fun _ =>
  (by decide : (decide (Format.mmioWr = Format.mmioWr) && inRows [(0x14, 0xFFC)] (0x014 : BitVec 12).toNat) = true)

theorem wrErrOffset (v : Word) : Statement (.wrErrOffset v) := fun _ =>
  (by decide : (decide (Format.mmioWr = Format.mmioWr) && inRows [(0x18, 0xFFC)] (0x018 : BitVec 12).toNat) = true)

theorem wrErrExpected (v : Word) : Statement (.wrErrExpected v) := fun _ =>
  (by decide : (decide (Format.mmioWr = Format.mmioWr) && inRows [(0x1C, 0xFFC)] (0x01C : BitVec 12).toNat) = true)

theorem wrErrActual (v : Word) : Statement (.wrErrActual v) := fun _ =>
  (by decide : (decide (Format.mmioWr = Format.mmioWr) && inRows [(0x20, 0xFFC)] (0x020 : BitVec 12).toNat) = true)

theorem wrConsumed (v : Word) : Statement (.wrConsumed v) := fun _ =>
  (by decide : (decide (Format.mmioWr = Format.mmioWr) && inRows [(0x24, 0xFFC)] (0x024 : BitVec 12).toNat) = true)

theorem wrHeader (v : Word) : Statement (.wrHeader v) := fun _ =>
  (by decide : (decide (Format.mmioWr = Format.mmioWr) && inRows [(0x28, 0xFFC)] (0x028 : BitVec 12).toNat) = true)

theorem wrResumeOffset (v : Word) : Statement (.wrResumeOffset v) := fun _ =>
  (by decide : (decide (Format.mmioWr = Format.mmioWr) && inRows [(0x2C, 0xFFC)] (0x02C : BitVec 12).toNat) = true)

theorem wrLeadLo (v : Word) : Statement (.wrLeadLo v) := fun _ =>
  (by decide : (decide (Format.mmioWr = Format.mmioWr) && inRows [(0x30, 0xFFC)] (0x030 : BitVec 12).toNat) = true)

theorem wrLeadHi (v : Word) : Statement (.wrLeadHi v) := fun _ =>
  (by decide : (decide (Format.mmioWr = Format.mmioWr) && inRows [(0x34, 0xFFC)] (0x034 : BitVec 12).toNat) = true)

theorem wrBlockCount (v : Word) : Statement (.wrBlockCount v) := fun _ =>
  (by decide : (decide (Format.mmioWr = Format.mmioWr) && inRows [(0x38, 0xFFC)] (0x038 : BitVec 12).toNat) = true)

theorem wrChecksum (v : Word) : Statement (.wrChecksum v) := fun _ =>
  (by decide : (decide (Format.mmioWr = Format.mmioWr) && inRows [(0x3C, 0xFFC)] (0x03C : BitVec 12).toNat) = true)

theorem wrImageLen (v : Word) : Statement (.wrImageLen v) := fun _ =>
  (by decide : (decide (Format.mmioWr = Format.mmioWr) && inRows [(0x40, 0xFFC)] (0x040 : BitVec 12).toNat) = true)

theorem wrImgAddr (v : Word) : Statement (.wrImgAddr v) := fun _ =>
  (by decide : (decide (Format.mmioWr = Format.mmioWr) && inRows [(0x44, 0xFFC)] (0x044 : BitVec 12).toNat) = true)

theorem wrImgData (v : Word) : Statement (.wrImgData v) := fun _ =>
  (by decide : (decide (Format.mmioWr = Format.mmioWr) && inRows [(0x48, 0xFFC)] (0x048 : BitVec 12).toNat) = true)

theorem wrEnvCrc (v : Word) : Statement (.wrEnvCrc v) := fun _ =>
  (by decide : (decide (Format.mmioWr = Format.mmioWr) && inRows [(0x4C, 0xFFC)] (0x04C : BitVec 12).toNat) = true)

theorem wrDeclaredLen (v : Word) : Statement (.wrDeclaredLen v) := fun _ =>
  (by decide : (decide (Format.mmioWr = Format.mmioWr) && inRows [(0x50, 0xFFC)] (0x050 : BitVec 12).toNat) = true)

theorem wrOutCount (v : Word) : Statement (.wrOutCount v) := fun _ =>
  (by decide : (decide (Format.mmioWr = Format.mmioWr) && inRows [(0x54, 0xFFC)] (0x054 : BitVec 12).toNat) = true)

theorem wrIrqStatus (v : Word) : Statement (.wrIrqStatus v) := fun _ =>
  (by decide : (decide (Format.mmioWr = Format.mmioWr) && inRows [(0x58, 0xFFC)] (0x058 : BitVec 12).toNat) = true)

theorem wrEngineState (v : Word) : Statement (.wrEngineState v) := fun _ =>
  (by decide : (decide (Format.mmioWr = Format.mmioWr) && inRows [(0x5C, 0xFFC)] (0x05C : BitVec 12).toNat) = true)

theorem wrBitpos (v : Word) : Statement (.wrBitpos v) := fun _ =>
  (by decide : (decide (Format.mmioWr = Format.mmioWr) && inRows [(0x60, 0xFFC)] (0x060 : BitVec 12).toNat) = true)

theorem wrHistWpos (v : Word) : Statement (.wrHistWpos v) := fun _ =>
  (by decide : (decide (Format.mmioWr = Format.mmioWr) && inRows [(0x64, 0xFFC)] (0x064 : BitVec 12).toNat) = true)

theorem wrParam0 (v : Word) : Statement (.wrParam0 v) := fun _ =>
  (by decide : (decide (Format.mmioWr = Format.mmioWr) && inRows [(0x68, 0xFFC)] (0x068 : BitVec 12).toNat) = true)

theorem wrParam1 (v : Word) : Statement (.wrParam1 v) := fun _ =>
  (by decide : (decide (Format.mmioWr = Format.mmioWr) && inRows [(0x6C, 0xFFC)] (0x06C : BitVec 12).toNat) = true)

theorem wrParam2 (v : Word) : Statement (.wrParam2 v) := fun _ =>
  (by decide : (decide (Format.mmioWr = Format.mmioWr) && inRows [(0x70, 0xFFC)] (0x070 : BitVec 12).toNat) = true)

theorem wrParam3 (v : Word) : Statement (.wrParam3 v) := fun _ =>
  (by decide : (decide (Format.mmioWr = Format.mmioWr) && inRows [(0x74, 0xFFC)] (0x074 : BitVec 12).toNat) = true)

theorem wrSubject (k : BitVec 6) (v : Word) : Statement (.wrSubject k v) := fun _ => rdSubject k rfl

theorem wrReserved078 (k : BitVec 1) (v : Word) : Statement (.wrReserved078 k v) := fun _ => rdReserved078 k rfl

theorem wrReserved080 (k : BitVec 5) (v : Word) : Statement (.wrReserved080 k v) := fun _ => rdReserved080 k rfl

theorem wrReserved200 (k : BitVec 7) (v : Word) : Statement (.wrReserved200 k v) := fun _ => rdReserved200 k rfl

theorem wrReserved400 (k : BitVec 8) (v : Word) : Statement (.wrReserved400 k v) := fun _ => rdReserved400 k rfl

theorem wrReserved800 (k : BitVec 9) (v : Word) : Statement (.wrReserved800 k v) := fun _ => rdReserved800 k rfl

theorem soh : Statement .soh := fun _ => by decide

theorem errMissingHeaderMarker (b : Byte) : Statement (.errMissingHeaderMarker b) :=
  (by decide +kernel : ∀ b : Byte, (Instr.errMissingHeaderMarker b).wf = true → fits (.errMissingHeaderMarker b) = true) b

theorem hlen (b : Byte) : Statement (.hlen b) :=
  (by decide +kernel : ∀ b : Byte, (Instr.hlen b).wf = true → fits (.hlen b) = true) b

theorem errMalformedHeaderR1 (b : Byte) : Statement (.errMalformedHeaderR1 b) :=
  (by decide +kernel : ∀ b : Byte, (Instr.errMalformedHeaderR1 b).wf = true → fits (.errMalformedHeaderR1 b) = true) b

theorem subjNul : Statement .subjNul := fun _ => by decide

theorem subjByte (b : Byte) : Statement (.subjByte b) :=
  (by decide +kernel : ∀ b : Byte, (Instr.subjByte b).wf = true → fits (.subjByte b) = true) b

theorem offsNul : Statement .offsNul := fun _ => by decide

theorem offsDigit (b : Byte) : Statement (.offsDigit b) :=
  (by decide +kernel : ∀ b : Byte, (Instr.offsDigit b).wf = true → fits (.offsDigit b) = true) b

theorem errMalformedHeaderR4 (b : Byte) : Statement (.errMalformedHeaderR4 b) :=
  (by decide +kernel : ∀ b : Byte, (Instr.errMalformedHeaderR4 b).wf = true → fits (.errMalformedHeaderR4 b) = true) b

theorem resStx : Statement .resStx := fun _ => by decide

theorem errMalformedResumeStx (b : Byte) : Statement (.errMalformedResumeStx b) :=
  (by decide +kernel : ∀ b : Byte, (Instr.errMalformedResumeStx b).wf = true → fits (.errMalformedResumeStx b) = true) b

theorem resLen : Statement .resLen := fun _ => by decide

theorem errMalformedResumeLen (b : Byte) : Statement (.errMalformedResumeLen b) :=
  (by decide +kernel : ∀ b : Byte, (Instr.errMalformedResumeLen b).wf = true → fits (.errMalformedResumeLen b) = true) b

theorem leadByte (b : Byte) : Statement (.leadByte b) :=
  (by decide +kernel : ∀ b : Byte, (Instr.leadByte b).wf = true → fits (.leadByte b) = true) b

theorem blkStx : Statement .blkStx := fun _ => by decide

theorem blkEot : Statement .blkEot := fun _ => by decide

theorem errUnexpectedBlockMarker (b : Byte) : Statement (.errUnexpectedBlockMarker b) :=
  (by decide +kernel : ∀ b : Byte, (Instr.errUnexpectedBlockMarker b).wf = true → fits (.errUnexpectedBlockMarker b) = true) b

theorem blkLen (b : Byte) : Statement (.blkLen b) :=
  (by decide +kernel : ∀ b : Byte, (Instr.blkLen b).wf = true → fits (.blkLen b) = true) b

theorem errBlockLengthInvalid (b : Byte) : Statement (.errBlockLengthInvalid b) :=
  (by decide +kernel : ∀ b : Byte, (Instr.errBlockLengthInvalid b).wf = true → fits (.errBlockLengthInvalid b) = true) b

theorem blkData (b : Byte) : Statement (.blkData b) :=
  (by decide +kernel : ∀ b : Byte, (Instr.blkData b).wf = true → fits (.blkData b) = true) b

theorem csum (b : Byte) : Statement (.csum b) :=
  (by decide +kernel : ∀ b : Byte, (Instr.csum b).wf = true → fits (.csum b) = true) b

theorem lit (c : Byte) : Statement (.lit c) :=
  (by decide +kernel : ∀ c : Byte, (Instr.lit c).wf = true → fits (.lit c) = true) c

theorem matchSym (m : Byte) : Statement (.matchSym m) :=
  (by decide +kernel : ∀ m : Byte, (Instr.matchSym m).wf = true → fits (.matchSym m) = true) m

theorem pos3 (x : Byte) : Statement (.pos3 x) :=
  (by decide +kernel : ∀ x : Byte, (Instr.pos3 x).wf = true → fits (.pos3 x) = true) x

theorem pos4 (x : Byte) : Statement (.pos4 x) :=
  (by decide +kernel : ∀ x : Byte, (Instr.pos4 x).wf = true → fits (.pos4 x) = true) x

theorem pos5 (x : Byte) : Statement (.pos5 x) :=
  (by decide +kernel : ∀ x : Byte, (Instr.pos5 x).wf = true → fits (.pos5 x) = true) x

theorem pos6 (x : Byte) : Statement (.pos6 x) :=
  (by decide +kernel : ∀ x : Byte, (Instr.pos6 x).wf = true → fits (.pos6 x) = true) x

theorem pos7 (x : Byte) : Statement (.pos7 x) :=
  (by decide +kernel : ∀ x : Byte, (Instr.pos7 x).wf = true → fits (.pos7 x) = true) x

theorem pos8 (x : Byte) : Statement (.pos8 x) :=
  (by decide +kernel : ∀ x : Byte, (Instr.pos8 x).wf = true → fits (.pos8 x) = true) x

end Sys2Proof.Laws.EncodeWord
end

