-- ==== Sys2Proof/Tests/Slice0.lean ====
section
/-!
SUPPORT. Tests: ill-formed terms that WellFormed refuses, every constructor's decoding of a word written out from the
spec's encoding, single steps against the spec's examples and vectors (95_test_vectors.md), and for every statement with
hypotheses a state and operands that meet them.
-/

namespace Sys2Proof.Tests

-- The tests are elaborated one after the other: side by side their threads exceed the memory limit of the check.
set_option Elab.async false

open Sys2Proof.Machine
open Sys2Proof.Config (Params RawParams)

/-! ### WellFormed: one ill-formed term for each check (30_encoding.md R88, R92, R94) -/

theorem test_illFormed_header_marker : Instr.wf (.errMissingHeaderMarker 0x01) = false := by decide

theorem test_illFormed_header_length_too_short : Instr.wf (.hlen 0x01) = false := by decide

theorem test_illFormed_header_length_long_enough : Instr.wf (.errMalformedHeaderR1 0x02) = false := by decide

theorem test_illFormed_subject_nul : Instr.wf (.subjByte 0x00) = false := by decide

theorem test_illFormed_digit_below : Instr.wf (.offsDigit 0x2F) = false := by decide

theorem test_illFormed_digit_above : Instr.wf (.offsDigit 0x3A) = false := by decide

theorem test_illFormed_offset_nul : Instr.wf (.errMalformedHeaderR4 0x00) = false := by decide

theorem test_illFormed_offset_digit : Instr.wf (.errMalformedHeaderR4 0x39) = false := by decide

theorem test_illFormed_resume_stx : Instr.wf (.errMalformedResumeStx 0x02) = false := by decide

theorem test_illFormed_resume_length : Instr.wf (.errMalformedResumeLen 0x06) = false := by decide

theorem test_illFormed_marker_stx : Instr.wf (.errUnexpectedBlockMarker 0x02) = false := by decide

theorem test_illFormed_marker_eot : Instr.wf (.errUnexpectedBlockMarker 0x04) = false := by decide

theorem test_illFormed_block_length_over : Instr.wf (.blkLen 0xFB) = false := by decide

theorem test_illFormed_block_length_legal : Instr.wf (.errBlockLengthInvalid 0xFA) = false := by decide

theorem test_illFormed_match_symbol_over : Instr.wf (.matchSym 0xFF) = false := by decide

theorem test_illFormed_pos3_over : Instr.wf (.pos3 0x20) = false := by decide

theorem test_illFormed_pos4_under : Instr.wf (.pos4 0x1F) = false := by decide

theorem test_illFormed_pos4_over : Instr.wf (.pos4 0x50) = false := by decide

theorem test_illFormed_pos5_under : Instr.wf (.pos5 0x4F) = false := by decide

theorem test_illFormed_pos5_over : Instr.wf (.pos5 0x90) = false := by decide

theorem test_illFormed_pos6_under : Instr.wf (.pos6 0x8F) = false := by decide

theorem test_illFormed_pos6_over : Instr.wf (.pos6 0xC0) = false := by decide

theorem test_illFormed_pos7_under : Instr.wf (.pos7 0xBF) = false := by decide

theorem test_illFormed_pos7_over : Instr.wf (.pos7 0xF0) = false := by decide

theorem test_illFormed_pos8_under : Instr.wf (.pos8 0xEF) = false := by decide

/-- The parameter sets that R10 names are refused. -/
theorem test_parameterSets_refused :
    Params.ofRaw? { RawParams.default with windowSize := 1000 } = none ∧
    Params.ofRaw? { RawParams.default with windowSize := 64 } = none ∧
    Params.ofRaw? { RawParams.default with windowSize := 8192 } = none ∧
    Params.ofRaw? { RawParams.default with windowSize := 128, lookahead := 128 } = none ∧
    Params.ofRaw? { RawParams.default with lookahead := 256 } = none ∧
    Params.ofRaw? { RawParams.default with threshold := 60 } = none ∧
    Params.ofRaw? { RawParams.default with imageCap := 5 } = none := by decide

/-! ### Decoding, word by word -/

/-- Format CMD (R85); the ignored bits are set in every second word. -/
theorem test_decode_commands :
    decode (.cmd 0x00000000) = .instr .nop ∧
    decode (.cmd 0xFFFFFFF1) = .instr .run ∧
    decode (.cmd 0x00000002) = .instr .frameOnly ∧
    decode (.cmd 0xFFFFFFF3) = .instr .decodeOnly ∧
    decode (.cmd 0x00000004) = .instr .abort ∧
    decode (.cmd 0xFFFFFFF5) = .instr .clear ∧
    decode (.cmd 0x00000006) = .instr .cmdReserved6 ∧
    decode (.cmd 0xFFFFFFF7) = .instr .cmdReserved7 ∧
    decode (.cmd 0x00000008) = .instr .cmdReserved8 ∧
    decode (.cmd 0xFFFFFFF9) = .instr .cmdReserved9 ∧
    decode (.cmd 0x0000000A) = .instr .cmdReservedA ∧
    decode (.cmd 0xFFFFFFFB) = .instr .cmdReservedB ∧
    decode (.cmd 0x0000000C) = .instr .cmdReservedC ∧
    decode (.cmd 0xFFFFFFFD) = .instr .cmdReservedD ∧
    decode (.cmd 0x0000000E) = .instr .cmdReservedE ∧
    decode (.cmd 0xFFFFFFFF) = .instr .cmdReservedF := by decide

/-- Format MMIO_RD (R40, R86); offset[1:0] takes every value and is ignored. -/
theorem test_decode_reads :
    decode (.mmioRd 0x000) = .instr .rdId ∧
    decode (.mmioRd 0x005) = .instr .rdVersion ∧
    decode (.mmioRd 0x00A) = .instr .rdCtrl ∧
    decode (.mmioRd 0x00F) = .instr .rdCmd ∧
    decode (.mmioRd 0x010) = .instr .rdStatus ∧
    decode (.mmioRd 0x015) = .instr .rdErrCode ∧
    decode (.mmioRd 0x01A) = .instr .rdErrOffset ∧
    decode (.mmioRd 0x01F) = .instr .rdErrExpected ∧
    decode (.mmioRd 0x020) = .instr .rdErrActual ∧
    decode (.mmioRd 0x025) = .instr .rdConsumed ∧
    decode (.mmioRd 0x02A) = .instr .rdHeader ∧
    decode (.mmioRd 0x02F) = .instr .rdResumeOffset ∧
    decode (.mmioRd 0x030) = .instr .rdLeadLo ∧
    decode (.mmioRd 0x035) = .instr .rdLeadHi ∧
    decode (.mmioRd 0x03A) = .instr .rdBlockCount ∧
    decode (.mmioRd 0x03F) = .instr .rdChecksum ∧
    decode (.mmioRd 0x040) = .instr .rdImageLen ∧
    decode (.mmioRd 0x045) = .instr .rdImgAddr ∧
    decode (.mmioRd 0x04A) = .instr .rdImgData ∧
    decode (.mmioRd 0x04F) = .instr .rdEnvCrc ∧
    decode (.mmioRd 0x050) = .instr .rdDeclaredLen ∧
    decode (.mmioRd 0x055) = .instr .rdOutCount ∧
    decode (.mmioRd 0x05A) = .instr .rdIrqStatus ∧
    decode (.mmioRd 0x05F) = .instr .rdEngineState ∧
    decode (.mmioRd 0x060) = .instr .rdBitpos ∧
    decode (.mmioRd 0x065) = .instr .rdHistWpos ∧
    decode (.mmioRd 0x06A) = .instr .rdParam0 ∧
    decode (.mmioRd 0x06F) = .instr .rdParam1 ∧
    decode (.mmioRd 0x070) = .instr .rdParam2 ∧
    decode (.mmioRd 0x075) = .instr .rdParam3 ∧
    decode (.mmioRd 0x100) = .instr (.rdSubject 0) ∧
    decode (.mmioRd 0x1FC) = .instr (.rdSubject 63) ∧
    decode (.mmioRd 0x078) = .instr (.rdReserved078 0) ∧
    decode (.mmioRd 0x07C) = .instr (.rdReserved078 1) ∧
    decode (.mmioRd 0x080) = .instr (.rdReserved080 0) ∧
    decode (.mmioRd 0x0FC) = .instr (.rdReserved080 31) ∧
    decode (.mmioRd 0x200) = .instr (.rdReserved200 0) ∧
    decode (.mmioRd 0x3FC) = .instr (.rdReserved200 127) ∧
    decode (.mmioRd 0x400) = .instr (.rdReserved400 0) ∧
    decode (.mmioRd 0x7FC) = .instr (.rdReserved400 255) ∧
    decode (.mmioRd 0x800) = .instr (.rdReserved800 0) ∧
    decode (.mmioRd 0xFFC) = .instr (.rdReserved800 511) := by decide

/-- Format MMIO_WR (R40, R86). -/
theorem test_decode_writes :
    decode (.mmioWr 0x000 0xA5000000) = .instr (.wrId 0xA5000000) ∧
    decode (.mmioWr 0x005 0xA5000001) = .instr (.wrVersion 0xA5000001) ∧
    decode (.mmioWr 0x00A 0xA5000002) = .instr (.wrCtrl 0xA5000002) ∧
    decode (.mmioWr 0x00F 0xA5000003) = .instr (.wrCmd 0xA5000003) ∧
    decode (.mmioWr 0x010 0xA5000004) = .instr (.wrStatus 0xA5000004) ∧
    decode (.mmioWr 0x015 0xA5000005) = .instr (.wrErrCode 0xA5000005) ∧
    decode (.mmioWr 0x01A 0xA5000006) = .instr (.wrErrOffset 0xA5000006) ∧
    decode (.mmioWr 0x01F 0xA5000007) = .instr (.wrErrExpected 0xA5000007) ∧
    decode (.mmioWr 0x020 0xA5000008) = .instr (.wrErrActual 0xA5000008) ∧
    decode (.mmioWr 0x025 0xA5000009) = .instr (.wrConsumed 0xA5000009) ∧
    decode (.mmioWr 0x02A 0xA500000A) = .instr (.wrHeader 0xA500000A) ∧
    decode (.mmioWr 0x02F 0xA500000B) = .instr (.wrResumeOffset 0xA500000B) ∧
    decode (.mmioWr 0x030 0xA500000C) = .instr (.wrLeadLo 0xA500000C) ∧
    decode (.mmioWr 0x035 0xA500000D) = .instr (.wrLeadHi 0xA500000D) ∧
    decode (.mmioWr 0x03A 0xA500000E) = .instr (.wrBlockCount 0xA500000E) ∧
    decode (.mmioWr 0x03F 0xA500000F) = .instr (.wrChecksum 0xA500000F) ∧
    decode (.mmioWr 0x040 0xA5000010) = .instr (.wrImageLen 0xA5000010) ∧
    decode (.mmioWr 0x045 0xA5000011) = .instr (.wrImgAddr 0xA5000011) ∧
    decode (.mmioWr 0x04A 0xA5000012) = .instr (.wrImgData 0xA5000012) ∧
    decode (.mmioWr 0x04F 0xA5000013) = .instr (.wrEnvCrc 0xA5000013) ∧
    decode (.mmioWr 0x050 0xA5000014) = .instr (.wrDeclaredLen 0xA5000014) ∧
    decode (.mmioWr 0x055 0xA5000015) = .instr (.wrOutCount 0xA5000015) ∧
    decode (.mmioWr 0x05A 0xA5000016) = .instr (.wrIrqStatus 0xA5000016) ∧
    decode (.mmioWr 0x05F 0xA5000017) = .instr (.wrEngineState 0xA5000017) ∧
    decode (.mmioWr 0x060 0xA5000018) = .instr (.wrBitpos 0xA5000018) ∧
    decode (.mmioWr 0x065 0xA5000019) = .instr (.wrHistWpos 0xA5000019) ∧
    decode (.mmioWr 0x06A 0xA500001A) = .instr (.wrParam0 0xA500001A) ∧
    decode (.mmioWr 0x06F 0xA500001B) = .instr (.wrParam1 0xA500001B) ∧
    decode (.mmioWr 0x070 0xA500001C) = .instr (.wrParam2 0xA500001C) ∧
    decode (.mmioWr 0x075 0xA500001D) = .instr (.wrParam3 0xA500001D) ∧
    decode (.mmioWr 0x100 0x5) = .instr (.wrSubject 0 0x5) ∧
    decode (.mmioWr 0x1FC 0x5) = .instr (.wrSubject 63 0x5) ∧
    decode (.mmioWr 0x078 0x5) = .instr (.wrReserved078 0 0x5) ∧
    decode (.mmioWr 0x07C 0x5) = .instr (.wrReserved078 1 0x5) ∧
    decode (.mmioWr 0x080 0x5) = .instr (.wrReserved080 0 0x5) ∧
    decode (.mmioWr 0x0FC 0x5) = .instr (.wrReserved080 31 0x5) ∧
    decode (.mmioWr 0x200 0x5) = .instr (.wrReserved200 0 0x5) ∧
    decode (.mmioWr 0x3FC 0x5) = .instr (.wrReserved200 127 0x5) ∧
    decode (.mmioWr 0x400 0x5) = .instr (.wrReserved400 0 0x5) ∧
    decode (.mmioWr 0x7FC 0x5) = .instr (.wrReserved400 255 0x5) ∧
    decode (.mmioWr 0x800 0x5) = .instr (.wrReserved800 0 0x5) ∧
    decode (.mmioWr 0xFFC 0x5) = .instr (.wrReserved800 511 0x5) := by decide

/-- Format FRAME_BYTE (R24, R88): fstate·256 + byte; 11 to 15 are no state. -/
theorem test_decode_frame_bytes :
    decode (.frameByte 0x001) = .instr (.soh) ∧
    decode (.frameByte 0x002) = .instr (.errMissingHeaderMarker 0x02) ∧
    decode (.frameByte 0x102) = .instr (.hlen 0x02) ∧
    decode (.frameByte 0x1FF) = .instr (.hlen 0xFF) ∧
    decode (.frameByte 0x101) = .instr (.errMalformedHeaderR1 0x01) ∧
    decode (.frameByte 0x200) = .instr (.subjNul) ∧
    decode (.frameByte 0x254) = .instr (.subjByte 0x54) ∧
    decode (.frameByte 0x300) = .instr (.offsNul) ∧
    decode (.frameByte 0x330) = .instr (.offsDigit 0x30) ∧
    decode (.frameByte 0x339) = .instr (.offsDigit 0x39) ∧
    decode (.frameByte 0x32F) = .instr (.errMalformedHeaderR4 0x2F) ∧
    decode (.frameByte 0x33A) = .instr (.errMalformedHeaderR4 0x3A) ∧
    decode (.frameByte 0x402) = .instr (.resStx) ∧
    decode (.frameByte 0x404) = .instr (.errMalformedResumeStx 0x04) ∧
    decode (.frameByte 0x506) = .instr (.resLen) ∧
    decode (.frameByte 0x505) = .instr (.errMalformedResumeLen 0x05) ∧
    decode (.frameByte 0x602) = .instr (.leadByte 0x02) ∧
    decode (.frameByte 0x702) = .instr (.blkStx) ∧
    decode (.frameByte 0x704) = .instr (.blkEot) ∧
    decode (.frameByte 0x703) = .instr (.errUnexpectedBlockMarker 0x03) ∧
    decode (.frameByte 0x800) = .instr (.blkLen 0x00) ∧
    decode (.frameByte 0x8FA) = .instr (.blkLen 0xFA) ∧
    decode (.frameByte 0x8FB) = .instr (.errBlockLengthInvalid 0xFB) ∧
    decode (.frameByte 0x9BF) = .instr (.blkData 0xBF) ∧
    decode (.frameByte 0xA37) = .instr (.csum 0x37) ∧
    decode (.frameByte 0xB00) = .rejected (.fstateNeverHeld 11) ∧
    decode (.frameByte 0xFFF) = .rejected (.fstateNeverHeld 15) := by decide

/-- Format LZH_SYM (R92): literals, matches, and the word that no alphabet holds. -/
theorem test_decode_symbols :
    decode (.lzhSym 0x000) = .instr (.lit 0x00) ∧ decode (.lzhSym 0x0FF) = .instr (.lit 0xFF) ∧
    decode (.lzhSym 0x100) = .instr (.matchSym 0) ∧ decode (.lzhSym 0x139) = .instr (.matchSym 57) ∧
    decode (.lzhSym 0x1FE) = .instr (.matchSym 254) ∧
    decode (.lzhSym 0x1FF) = .rejected .symbolOutsideEveryAlphabet := by decide

/-- Format LZH_POS (R94), the ends of the six ranges. -/
theorem test_decode_positions :
    decode (.lzhPos 0x00) = .instr (.pos3 0x00) ∧ decode (.lzhPos 0x1F) = .instr (.pos3 0x1F) ∧
    decode (.lzhPos 0x20) = .instr (.pos4 0x20) ∧ decode (.lzhPos 0x4F) = .instr (.pos4 0x4F) ∧
    decode (.lzhPos 0x50) = .instr (.pos5 0x50) ∧ decode (.lzhPos 0x8F) = .instr (.pos5 0x8F) ∧
    decode (.lzhPos 0x90) = .instr (.pos6 0x90) ∧ decode (.lzhPos 0xBF) = .instr (.pos6 0xBF) ∧
    decode (.lzhPos 0xC0) = .instr (.pos7 0xC0) ∧ decode (.lzhPos 0xEF) = .instr (.pos7 0xEF) ∧
    decode (.lzhPos 0xF0) = .instr (.pos8 0xF0) ∧ decode (.lzhPos 0xFF) = .instr (.pos8 0xFF) := by decide

/-- The opcode table's own words, one of each format that the table's numbering tells apart (log 12). -/
theorem test_decode_table_words :
    decodeTableWord 8 0x1 = some .run ∧ decodeTableWord 16 0x010 = some .rdStatus ∧
    decodeTableWord 16 0x107 = some (.hlen 0x07) ∧ decodeTableWord 16 0x9BF = some (.blkData 0xBF) ∧
    decodeTableWord 8 0xF0 = some (.pos8 0xF0) := by decide

/-! ### Single steps against the spec's examples -/

/-- In phase FRAME of a RUN, a byte offered. -/
def framing (f : FState) (b : Byte) : State :=
  { State.reset with ctl := ⟨.frame, .run, f, .env⟩, inp := ⟨true, b, false⟩ }

/-- In phase FRAME with no byte offered. -/
def starved (f : FState) (ended : Bool) : State :=
  { State.reset with ctl := ⟨.frame, .run, f, .env⟩, inp := ⟨false, 0, ended⟩ }

/-- In phase DECODE, an image of six envelope bytes and a body. -/
def decoding (d : DState) (body : List Byte) (declared : Word) : State :=
  { State.reset with
    ctl := ⟨.decode, .run, .csum, d⟩
    env := ⟨true, 0, declared⟩
    fr := { State.reset.fr with imageLen := BitVec.ofNat 32 (6 + body.length) }
    img := (List.range body.length).map (fun k => (6 + k, body.getD k 0)) }

/-- `decoding` with the initial tree and window (42_lzhuf.md R185). -/
def onTree (d : DState) (body : List Byte) (declared : Word) : State :=
  { decoding d body declared with
    huff := startHuff Params.default, dec := { State.reset.dec with wpos := 1988 } }

/-- R112's example and H16: STATUS after RUN, with a byte offered and with none. -/
theorem test_run_status :
    ((next? (exec .run { State.reset with inp := ⟨true, 0x01, false⟩ })).map State.status) = some 0x00000809 ∧
    ((next? (exec .run State.reset)).map State.status) = some 0x00000A09 := by decide +kernel

/-- H17: a start command while busy sets BADCMD and nothing else. -/
theorem test_run_refused : (next? (exec .run (starved .soh false))).map State.status = some 0x00000B09 := by
  decide +kernel

/-- R116's example: ABORT after the SOH has been consumed. -/
theorem test_abort :
    (next? (exec .abort (framing .hlen 0x07).byteTaken)).map (fun t => (t.status, t.err.code, t.err.offset)) =
      some (0x00000825, 0x30, 1) := by decide +kernel

/-- H6 and H7: a reserved command, then CLEAR. -/
theorem test_reserved_then_clear :
    (next? (exec .cmdReserved6 State.reset)).map State.status = some 0x00000100 ∧
    (next? (exec .clear State.reset.refuse)).map State.status = some 0x00000000 := by decide +kernel

/-- H4: a write of all ones to CTRL reads back as 7. -/
theorem test_ctrl_write : (next? (exec (.wrCtrl 0xFFFFFFFF) State.reset)).map State.regCtrl = some 0x00000007 := by
  decide +kernel

/-- R124's example. -/
theorem test_irq_status_write :
    (next? (exec (.wrIrqStatus 0x2) { State.reset with
      host := { State.reset.host with irqDone := true, irqErr := true } })).map State.regIrqStatus = some 0x1 := by
  decide +kernel

/-- H3: the parameter registers. -/
theorem test_param_reads :
    (State.reset.regParam0, State.reset.regParam1, State.reset.regParam2, State.reset.regParam3) =
      (0x00023C0B, 0x00100000, 0x00001021, 0x00200000) := by decide +kernel

/-- H11 and H12: IMAGE_LEN above and at IMAGE_CAP. -/
theorem test_image_len_write :
    (next? (exec (.wrImageLen 0x100001) State.reset)).map (fun t => (t.fr.imageLen, t.host.badcmd)) = some (0, true) ∧
    (next? (exec (.wrImageLen 0x100000) State.reset)).map (fun t => (t.fr.imageLen, t.host.badcmd)) =
      some (0x100000, false) := by decide +kernel

/-- H13: bits 31:8 of an IMG_DATA write are ignored. -/
theorem test_img_data_write :
    (next? (exec (.wrImgData 0x1E5) State.reset)).map (fun t => (t.img, t.host.imgAddr)) = some ([(0, 0xE5)], 1) := by
  decide +kernel

/-- H14 and H15: at or above IMAGE_CAP a read returns 0, a write stores nothing, and the address still advances. -/
theorem test_img_data_outside :
    (next? (exec .rdImgData { State.reset with host := { State.reset.host with imgAddr := 0xFFFFFFFF } })).map
      (fun t => (t.rdata, t.host.imgAddr)) = some (0, 0) ∧
    (next? (exec (.wrImgData 7) { State.reset with host := { State.reset.host with imgAddr := 0x100000 } })).map
      (fun t => (t.img, t.host.imgAddr)) = some ([], 0x100001) := by decide +kernel

/-- F1 and F14: a wrong header marker, a wrong block marker. -/
theorem test_wrong_markers :
    (next? (step (framing .soh 0x02))).map (fun t => (t.err, t.fr.consumed)) = some (⟨0x01, 0, 0x01, 0x02⟩, 1) ∧
    (next? (step (framing .mark 0x03))).map (fun t => t.err) = some ⟨0x03, 0, 0x0402, 0x03⟩ := by decide +kernel

/-- F2: no byte and the end of the input. -/
theorem test_truncated_input :
    (next? (step (starved .soh true))).map (fun t => (t.err, t.fr.consumed)) = some (⟨0x05, 0, 0, 0⟩, 0) := by
  decide +kernel

/-- F8 and F24: the last digit of "4294967296" is reason 5, that of "4294967295" is accepted. -/
theorem test_offset_limit :
    (next? (exec (.offsDigit 0x36) { framing .offs 0x36 with
      fr := { State.reset.fr with hdrRem := 2, offsAcc := 429496729 } })).map (fun t => (t.err.exp, t.fr.offsAcc)) =
      some (5, 429496729) ∧
    (next? (exec (.offsDigit 0x35) { framing .offs 0x35 with
      fr := { State.reset.fr with hdrRem := 2, offsAcc := 429496729 } })).map (fun t => (t.err.exp, t.fr.offsAcc)) =
      some (0, 0xFFFFFFFF) := by decide +kernel

/-- F11: the second NUL with one header byte left over. -/
theorem test_offset_left_over :
    (next? (exec .offsNul { framing .offs 0x00 with
      fr := { State.reset.fr with hdrRem := 2, offsNdig := 1, consumed := 4 } })).map (fun t => t.err) =
      some ⟨0x06, 4, 8, 1⟩ := by decide +kernel

/-- R147's example: the sixth lead byte, and LEAD_HI after it. -/
theorem test_last_lead_byte :
    (next? (exec (.leadByte 0x00) { framing .lead 0x00 with fr := { State.reset.fr with leadCnt := 5 } })).map
      (fun t => (t.regLeadHi, t.ctl.fstate)) = some (0x00060000, .mark) := by decide +kernel

/-- R151's example: sum 0xC9 fits 0x37 and not 0x38. -/
theorem test_checksum :
    (next? (exec (.csum 0x37) { framing .csum 0x37 with fr := { State.reset.fr with sum := 0xC9 } })).map
      (fun t => (t.ctl.phase, t.ctl.dstate)) = some (.decode, .env) ∧
    (next? (exec (.csum 0x38) { framing .csum 0x38 with fr := { State.reset.fr with sum := 0xC9 } })).map
      (fun t => t.err) = some ⟨0x04, 0, 0x37, 0x38⟩ := by decide +kernel

/-- R180's example: the envelope of BF 62 09 00 00 00. -/
theorem test_envelope :
    (next? (step { decoding .env [] 0 with
      img := [(0, 0xBF), (1, 0x62), (2, 0x09), (3, 0), (4, 0), (5, 0)] })).map (fun t => (t.env, t.ctl.dstate)) =
      some (⟨true, 0x62BF, 9⟩, .init) := by decide +kernel

/-- R185's example: wpos is 1988 and the root's frequency 314, over nodes 624 and 625. -/
theorem test_init :
    (next? (step (decoding .init [] 0))).map
      (fun t => (t.dec.wpos, t.huff.freqAt 626, t.huff.sonAt 626)) = some (1988, some 314, some 624) := by
  decide +kernel

/-- R189's example: update(0x61) on the initial tree swaps the leaf with node 313, and the root counts 315. -/
theorem test_update :
    ((startHuff Params.default).update Params.default 0x61).map
      (fun h => (h.prntAt (627 + 0x61), h.prntAt (627 + 313), h.freqAt 626)) = some (some 313, some 97, some 315) := by
  decide +kernel

/-- R188 where no order is broken (symbol 313, whose path R189's example gives): son and prnt stay as they were. -/
theorem test_update_unbroken :
    ((startHuff Params.default).update Params.default 313).map (fun h => (h.son, h.prnt, h.freqAt 313)) =
      some ((startHuff Params.default).son, (startHuff Params.default).prnt, some 2) := by decide +kernel

/-- Step 2 of R187 by hand on four leaves of frequencies 1, 1, 2, 3: the node 1 + 1 goes after the leaf of frequency 2,
the node 2 + 2 after the leaf of frequency 3. -/
theorem test_rebuild :
    rebuildFrom 3 0 [(1, 10), (1, 11), (2, 12), (3, 13)] =
      some [(1, 10), (1, 11), (2, 12), (2, 0), (3, 13), (4, 2), (7, 4)] := by decide

/-- Step 1 of R187: the leaves in node order, an odd frequency halved upwards, internal nodes (son below T) dropped. -/
theorem test_halved_leaves :
    halvedLeaves 7 [(1, 10), (2, 9), (3, 0), (5, 8)] = [(1, 10), (1, 9), (3, 8)] := by decide

/-- V1: the walk reads 111001101 from E6 80 and finds 0x41. -/
theorem test_walk :
    (match (onTree .sym [0xE6, 0x80] 1).walk with
      | .leaf c u => decide (c = 0x41 ∧ u.dec.bitpos = 9)
      | .truncated _ => false
      | .unsound => false) = true := by decide +kernel

/-- V10: E6 alone ends inside the code. -/
theorem test_walk_truncated :
    (match (onTree .sym [0xE6] 1).walk with
      | .leaf _ _ => false
      | .truncated u => decide (u.dec.bitpos = 8)
      | .unsound => false) = true := by decide +kernel

/-- V6b and V6: p = 2047 reads the oldest window byte, p = 2048 is outside the window. -/
theorem test_position_limits :
    (next? (step { decoding .pos [0x67, 0xFC] 4 with
      dec := { State.reset.dec with wpos := 1989, sym := 256, outCount := 1, bitpos := 1 } })).map
      (fun t => (t.dec.mSrc, t.dec.mLen, t.dec.bitpos)) = some (1989, 3, 14) ∧
    (next? (step { decoding .pos [0x68, 0x00] 4 with
      dec := { State.reset.dec with wpos := 1989, sym := 256, outCount := 1, bitpos := 1 } })).map
      (fun t => (t.err, t.dec.bitpos)) = some (⟨0x11, 7, 1, 0x801⟩, 14) := by decide +kernel

/-- V5s: under STRICT_WINDOW a reference into the fill is an error. -/
theorem test_strict_window :
    (next? (step { decoding .pos [0x00, 0x00] 4 with
      dec := { State.reset.dec with wpos := 1988, sym := 256 }
      host := { State.reset.host with cfgStrict := true } })).map (fun t => (t.err.exp, t.err.act)) = some (0, 1) := by
  decide +kernel

/-- V7: a match is cut at declared_len. -/
theorem test_copy_cut :
    (next? (step { decoding .copy [] 4 with
      dec := { State.reset.dec with outCount := 4, mLen := 2 } })).map (fun t => (t.dec.mLen, t.ctl.dstate, t.out.valid)) =
      some (0, .sym, false) := by decide +kernel

/-- E3: a CRC that does not fit. -/
theorem test_crc_mismatch :
    (next? (step { decoding .sym [] 9 with
      ctl := ⟨.check, .run, .csum, .sym⟩
      env := ⟨true, 0x62BE, 9⟩
      dec := { State.reset.dec with crcCalc := 0x62BF } })).map (fun t => t.err) =
      some ⟨0x21, 0, 0x62BE, 0x62BF⟩ := by decide +kernel

/-- K1 to K4 and K8. -/
theorem test_crc_vectors :
    crcFold Params.default [0x31, 0x32, 0x33, 0x34, 0x35, 0x36, 0x37, 0x38, 0x39] = 0x31C3 ∧
    crcFold Params.default [0x61, 0x62, 0x63, 0x61, 0x62, 0x63, 0x61, 0x62, 0x63] = 0x62BF := by decide +kernel

/-- R180's too short image (E7). -/
theorem test_envelope_too_short :
    (next? (step { decoding .env [] 0 with fr := { State.reset.fr with imageLen := 5 } })).map (fun t => t.err) =
      some ⟨0x09, 5, 6, 5⟩ := by decide +kernel

/-- V14 and V13: the body used up at a symbol boundary, and the finish test before it. -/
theorem test_symbol_boundary :
    (next? (step (decoding .sym [] 1))).map (fun t => t.err) = some ⟨0x20, 6, 1, 0⟩ ∧
    (next? (step (decoding .sym [] 0))).map (fun t => (t.ctl.phase, t.host.irqDone)) = some (.done, true) := by
  decide +kernel

/-- A word of the opcode table placed by `withFetchWord` is what the next step runs: RUN, a read of STATUS, a framer
byte, a position class. -/
theorem test_fetch_word :
    (next? (step (State.reset.withFetchWord 8 0x1))).map (fun t => t.ctl.phase) = some .frame ∧
    (next? (step (State.reset.withFetchWord 16 0x000))).map (fun t => t.rdata) = some 0x42324644 ∧
    (next? (step (State.reset.withFetchWord 16 0x107))).map (fun t => (t.fr.hdrLen, t.ctl.fstate)) =
      some (0x07, .subj) ∧
    (next? (step (State.reset.withFetchWord 8 0xF0))).map (fun t => (t.dec.bitpos, t.err.code)) = some (14, 0x11) := by
  decide +kernel

/-! ### Witnesses: states and operands that meet the statements' hypotheses -/

/-- The engine has the turn where the agenda is empty. -/
theorem engineHasTurn_empty {s : State} (h : s.agenda = []) : EngineHasTurn s s := .inl ⟨h, rfl⟩

/-- The engine has the turn where the agenda gives it. -/
theorem witness_EngineHasTurn_given :
    EngineHasTurn { State.reset with agenda := [.engine, .take] } { State.reset with agenda := [.take] } :=
  .inr (.inl ⟨[.take], rfl, rfl⟩)

/-- The engine has the turn where the first move must wait. -/
theorem witness_EngineHasTurn_blocked :
    EngineHasTurn { State.reset with agenda := [.take] } { State.reset with agenda := [.take] } :=
  .inr (.inr ⟨.take, [], rfl, rfl, rfl⟩)

theorem witness_StepRunsDecodedInstruction_host :
    ∃ (s : State) (op : HostOp) (rest : List Move) (i : Instr), s.agenda = .host op :: rest ∧
      decode op.word = .instr i :=
  ⟨{ State.reset with agenda := [.host (.command 1), .engine] }, .command 1, [.engine], .run, rfl, by decide⟩

theorem witness_StepRunsDecodedInstruction_byte :
    ∃ (s e : State) (i : Instr), EngineHasTurn s e ∧ e.ctl.phase = .frame ∧ e.inp.valid = true ∧
      decode (.frameByte (frameWord e.ctl.fstate e.inp.data)) = .instr i :=
  ⟨framing .csum 0xFF, framing .csum 0xFF, .csum 0xFF, engineHasTurn_empty rfl, rfl, rfl, by decide⟩

theorem witness_StepRunsDecodedInstruction_symbol :
    ∃ (s e u : State) (c : Nat) (i : Instr), EngineHasTurn s e ∧ e.ctl.phase = .decode ∧ e.ctl.dstate = .sym ∧
      e.out.valid = false ∧ e.dec.outCount ≠ e.env.declaredLen ∧ e.dec.bitpos ≠ e.bodyBits ∧
      e.walk = .leaf c u ∧ c < 512 ∧ decode (.lzhSym (BitVec.ofNat 9 c)) = .instr i := by
  have h := test_walk
  split at h
  · next c u hw =>
    have hc : c = 0x41 := by simp only [decide_eq_true_eq] at h; exact h.1
    subst hc
    exact ⟨onTree .sym [0xE6, 0x80] 1, _, u, 0x41, .lit 0x41, engineHasTurn_empty rfl, rfl, rfl, rfl, by decide,
      by decide, hw, by decide, by decide⟩
  · cases h
  · cases h

theorem witness_StepRunsDecodedInstruction_position :
    ∃ (s e : State) (i : Instr), EngineHasTurn s e ∧ e.ctl.phase = .decode ∧ e.ctl.dstate = .pos ∧
      e.dec.bitpos + 8 ≤ e.bodyBits ∧ decode (.lzhPos (BitVec.ofNat 8 (e.bitsFrom e.dec.bitpos 8))) = .instr i :=
  ⟨decoding .pos [0x57] 4, decoding .pos [0x57] 4, .pos5 0x57, engineHasTurn_empty rfl, rfl, rfl, by decide,
    by decide⟩

theorem witness_WaitingEngineChangesNothing :
    State.reset.ctl.phase = .idle ∧
    State.reset.complete.ctl.phase = .done ∧
    (State.reset.raise .aborted 0 0 0).ctl.phase = .error ∧
    ((starved .soh false).ctl.phase = .frame ∧ (starved .soh false).inp.valid = false ∧
      (starved .soh false).inp.ended = false) ∧
    (((decoding .sym [] 1).emit 0).ctl.phase = .decode ∧ ((decoding .sym [] 1).emit 0).out.valid = true) ∧
    ((decoding .copy [] 1).emit 0).ctl.dstate = .copy ∧
    EngineHasTurn State.reset State.reset ∧ EngineHasTurn (starved .soh false) (starved .soh false) :=
  ⟨rfl, rfl, rfl, ⟨rfl, rfl, rfl⟩, ⟨rfl, rfl⟩, rfl, engineHasTurn_empty rfl, engineHasTurn_empty rfl⟩

theorem witness_PortMovesFollowTheirRules :
    (∃ s : State, s.agenda = [.push 0x01] ∧ s.inp.valid = false ∧ s.inp.ended = false) ∧
    (∃ s : State, s.agenda = [.endInput]) ∧ (∃ s : State, s.agenda = [.clearEnd]) ∧
    (∃ s : State, s.agenda = [.take] ∧ s.out.valid = true) :=
  ⟨⟨{ State.reset with agenda := [.push 0x01] }, rfl, rfl, rfl⟩, ⟨{ State.reset with agenda := [.endInput] }, rfl⟩,
    ⟨{ State.reset with agenda := [.clearEnd] }, rfl⟩,
    ⟨{ State.reset.emit 0x41 with agenda := [.take] }, rfl, rfl⟩⟩

theorem witness_ResetLeavesSpecValues : ∃ s : State, s.agenda = [.reset] ∧ s.ctl.phase = .frame :=
  ⟨{ framing .blen 0xFF with agenda := [.reset] }, rfl, rfl⟩

theorem witness_CommandWordBitsSelectCommand :
    ((0x00000010 : Word).toNat % 16, Instr.nop) = (0x0, Instr.nop) ∧
    ((0xFFFFFFFF : Word).toNat % 16, Instr.cmdReservedF) = (0xF, Instr.cmdReservedF) := by decide

theorem witness_DecodeTakesBackEncode :
    Instr.wf (.blkLen 0xFA) = true ∧ Instr.wf (.matchSym 0xFE) = true ∧ Instr.wf (.rdReserved800 0x1FF) = true := by
  decide

theorem witness_DecodedWordsReencode :
    decode (.cmd 0xFFFFFFF1) = .instr .run ∧ decode (.mmioRd 0x013) = .instr .rdStatus ∧
    decode (.mmioWr 0x00F 0x2) = .instr (.wrCmd 0x2) ∧ decode (.lzhPos 0xFF) = .instr (.pos8 0xFF) := by decide

theorem witness_ParameterReadsReportParameters : State.reset.params.val = RawParams.default := rfl

/-- Busy and not busy, for the reads, writes and commands that tell them apart. -/
theorem witness_busy_and_idle :
    (framing .soh 0x01).busy = true ∧ (decoding .sym [] 1).busy = true ∧ State.reset.busy = false ∧
    State.reset.complete.busy = false ∧ (State.reset.raise .aborted 0 0 0).busy = false := by decide +kernel

theorem witness_ImgDataWriteStoresOneByte :
    (∃ s : State, s.busy = false ∧ s.host.imgAddr.toNat + 1 = s.params.cap) ∧
    (∃ s : State, s.busy = false ∧ s.host.imgAddr.toNat = s.params.cap) :=
  ⟨⟨{ State.reset with host := { State.reset.host with imgAddr := 0x0FFFFF } }, rfl, by decide⟩,
    ⟨{ State.reset with host := { State.reset.host with imgAddr := 0x100000 } }, rfl, by decide⟩⟩

theorem witness_ControlWritesFollowTheirRules :
    State.reset.params.cap < (0x100001 : Word).toNat ∧ State.reset.busy = false ∧
    (0x100000 : Word).toNat ≤ State.reset.params.cap ∧ (framing .soh 0x01).busy = true := by decide +kernel

theorem witness_AccessesNeverRaise :
    isRegisterAccess .rdImgData = true ∧ isRegisterAccess (.wrIrqStatus 0x3) = true ∧
    isRegisterAccess (.wrReserved800 0x1FF 0) = true ∧ isRegisterAccess (.wrCmd 0) = false := by decide

theorem witness_CmdWriteExecutesCommand :
    decode (.cmd 0x00000001) = .instr .run ∧ decode (.cmd 0x0000000F) = .instr .cmdReservedF := by decide

theorem witness_StarvedFramerTruncatesOrHolds (f : FState) (ended : Bool) :
    EngineHasTurn (starved f ended) (starved f ended) ∧ (starved f ended).ctl.phase = .frame ∧
    (starved f ended).ctl.fstate = f ∧ (starved f ended).inp.valid = false ∧ (starved f ended).inp.ended = ended :=
  ⟨engineHasTurn_empty rfl, rfl, rfl, rfl, rfl⟩

theorem witness_MarkerStepsFollowTheirRules :
    (0x00 : Byte) ≠ 0x01 ∧ (0x03 : Byte) ≠ 0x02 ∧ (0x05 : Byte) ≠ 0x06 ∧ (0x03 : Byte) ≠ 0x04 := by decide

theorem witness_LengthByteSteps :
    2 ≤ (0x02 : Byte).toNat ∧ (0x01 : Byte).toNat < 2 ∧ (0xFA : Byte).toNat ≤ 250 ∧ 250 < (0xFB : Byte).toNat := by
  decide

/-- Two header bytes left, and one. -/
theorem witness_SubjectSteps :
    (∃ s : State, s.fr.hdrRem.toNat = 2) ∧ (∃ s : State, s.fr.hdrRem.toNat = 1) ∧ (0x01 : Byte) ≠ 0x00 :=
  ⟨⟨{ State.reset with fr := { State.reset.fr with hdrRem := 2 } }, by decide⟩,
    ⟨{ State.reset with fr := { State.reset.fr with hdrRem := 1 } }, by decide⟩, by decide⟩

/-- The two digits at the ends of the range, the value 2^32 − 1 and the value above it, two bytes left and one. -/
theorem witness_OffsetDigitStep :
    (∃ (s : State) (b : Byte), 0x30 ≤ b.toNat ∧ b.toNat ≤ 0x39 ∧ 2 ≤ s.fr.hdrRem.toNat ∧
      s.fr.offsAcc.toNat * 10 + (b.toNat - 0x30) = 0xFFFFFFFF) ∧
    (∃ (s : State) (b : Byte), 0x30 ≤ b.toNat ∧ b.toNat ≤ 0x39 ∧ 1 ≤ s.fr.hdrRem.toNat ∧
      s.fr.offsAcc.toNat * 10 + (b.toNat - 0x30) = 0xFFFFFFFF + 1) ∧
    (∃ (s : State) (b : Byte), 0x30 ≤ b.toNat ∧ b.toNat ≤ 0x39 ∧ s.fr.hdrRem.toNat = 1 ∧
      s.fr.offsAcc.toNat * 10 + (b.toNat - 0x30) ≤ 0xFFFFFFFF) :=
  ⟨⟨{ State.reset with fr := { State.reset.fr with hdrRem := 2, offsAcc := 429496729 } }, 0x35, by decide⟩,
    ⟨{ State.reset with fr := { State.reset.fr with hdrRem := 1, offsAcc := 429496729 } }, 0x36, by decide⟩,
    ⟨{ State.reset with fr := { State.reset.fr with hdrRem := 1 } }, 0x39, by decide⟩⟩

/-- No digit; digits with a byte left over; digits and the end, offset 0 and 1; a byte that is no digit. -/
theorem witness_OffsetEndSteps :
    (∃ s : State, 1 ≤ s.fr.hdrRem.toNat ∧ s.fr.offsNdig = 0) ∧
    (∃ s : State, s.fr.hdrRem.toNat = 2 ∧ s.fr.offsNdig ≠ 0) ∧
    (∃ s : State, s.fr.hdrRem.toNat = 1 ∧ s.fr.offsNdig ≠ 0 ∧ s.fr.offsAcc = 0) ∧
    (∃ s : State, s.fr.hdrRem.toNat = 1 ∧ s.fr.offsNdig ≠ 0 ∧ s.fr.offsAcc = 1) ∧
    ((0x2F : Byte) ≠ 0x00 ∧ ¬(0x30 ≤ (0x2F : Byte).toNat ∧ (0x2F : Byte).toNat ≤ 0x39)) :=
  ⟨⟨{ State.reset with fr := { State.reset.fr with hdrRem := 1 } }, by decide⟩,
    ⟨{ State.reset with fr := { State.reset.fr with hdrRem := 2, offsNdig := 1 } }, by decide⟩,
    ⟨{ State.reset with fr := { State.reset.fr with hdrRem := 1, offsNdig := 1 } }, by decide⟩,
    ⟨{ State.reset with fr := { State.reset.fr with hdrRem := 1, offsNdig := 1, offsAcc := 1 } }, by decide⟩,
    by decide⟩

/-- The first lead byte and the sixth. -/
theorem witness_LeadByteStep :
    (∃ s : State, s.fr.lead.length = 6 ∧ s.fr.leadCnt.toNat = 0) ∧
    (∃ s : State, s.fr.lead.length = 6 ∧ s.fr.leadCnt.toNat = 5) :=
  ⟨⟨State.reset, by decide⟩, ⟨{ State.reset with fr := { State.reset.fr with leadCnt := 5 } }, by decide⟩⟩

/-- A full image, one of the largest IMAGE_CAP, and one with one byte left; the last byte of a block. -/
theorem witness_BlockDataStep :
    (∃ s : State, 1 ≤ s.fr.blkRem.toNat ∧ s.fr.imageLen.toNat = s.params.cap ∧ s.params.cap < 0xFFFFFFFF) ∧
    (∃ s : State, 1 ≤ s.fr.blkRem.toNat ∧ s.fr.imageLen.toNat = s.params.cap ∧ s.params.cap = 0xFFFFFFFF) ∧
    (∃ s : State, s.fr.blkRem.toNat = 1 ∧ s.fr.imageLen.toNat + 1 = s.params.cap) :=
  ⟨⟨{ State.reset with fr := { State.reset.fr with blkRem := 1, imageLen := 0x100000 } }, by decide⟩,
    ⟨{ State.reset with
        fr := { State.reset.fr with blkRem := 1, imageLen := 0xFFFFFFFF }
        params := ⟨{ RawParams.default with imageCap := 0xFFFFFFFF }, by decide⟩ }, by decide⟩,
    ⟨{ State.reset with fr := { State.reset.fr with blkRem := 1, imageLen := 0x0FFFFF } }, by decide⟩⟩

/-- sum = 0 expects 0x00; a RUN not resumed, a RUN resumed, a FRAME_ONLY run. -/
theorem witness_ChecksumStep :
    (0x00 : Byte) = BitVec.ofNat 8 (256 - State.reset.fr.sum.toNat) ∧
    (0x01 : Byte) ≠ BitVec.ofNat 8 (256 - State.reset.fr.sum.toNat) ∧
    ((framing .csum 0x00).ctl.mode = .run ∧ (framing .csum 0x00).fr.resumed = false) ∧
    ({ framing .csum 0x00 with fr := { State.reset.fr with resumed := true } } : State).fr.resumed = true ∧
    ({ framing .csum 0x00 with ctl := ⟨.frame, .frameOnly, .csum, .env⟩ } : State).ctl.mode ≠ .run := by decide +kernel

theorem witness_FramerConsumesOneByte :
    (∃ s t : State, EngineHasTurn s s ∧ step s = .next t ∧ s.ctl.phase = .frame ∧ s.inp.valid = true ∧
      t.ctl.phase = .error) ∧
    (∃ s t : State, EngineHasTurn s s ∧ step s = .next t ∧ s.ctl.phase = .frame ∧ s.inp.valid = false ∧
      t.ctl.phase = .error) ∧
    (∃ s t : State, EngineHasTurn s s ∧ step s = .next t ∧ s.ctl.phase ≠ .frame) :=
  ⟨⟨framing .soh 0x02, _, engineHasTurn_empty rfl, rfl, rfl, rfl, rfl⟩,
    ⟨starved .soh true, _, engineHasTurn_empty rfl, rfl, rfl, rfl, rfl⟩,
    ⟨decoding .env [] 0, _, engineHasTurn_empty rfl, rfl, by decide⟩⟩

theorem witness_ChecksumDetectsChangedByte :
    ∃ (s t t' : State) (before after : List Byte) (b b' c : Byte), b ≠ b' ∧
      s.fr.imageLen.toNat + before.length + after.length + 1 ≤ s.params.cap ∧
      execAll ((before ++ b :: after).map .blkData) s = some t ∧
      execAll ((before ++ b' :: after).map .blkData) s = some t' ∧
      ∃ u, exec (.csum c) t = .next u ∧ u.ctl.phase ≠ .error :=
  ⟨framing .bdata 0x00, _, _, [], [], 0x01, 0x02, 0xFF, by decide, by decide, rfl, rfl, _, rfl, by decide +kernel⟩

theorem witness_BlockSplitDoesNotMatter :
    ∃ (s : State) (xs ys : List (List Byte)), s.ctl.fstate = .mark ∧ (∀ x ∈ xs, x.length ≤ 250) ∧
      (∀ y ∈ ys, y.length ≤ 250) ∧ xs.flatten = ys.flatten ∧ xs ≠ ys ∧
      s.fr.imageLen.toNat + xs.flatten.length ≤ s.params.cap :=
  ⟨framing .mark 0x02, [List.replicate 250 0x41, [0x42]], [[0x41], [], List.replicate 249 0x41 ++ [0x42]],
    rfl, by decide +kernel, by decide +kernel, by decide +kernel, by decide +kernel, by decide +kernel⟩

/-- Five image bytes and six. -/
theorem witness_EnvelopeStep :
    (∃ s : State, EngineHasTurn s s ∧ s.ctl.phase = .decode ∧ s.ctl.dstate = .env ∧ s.fr.imageLen.toNat = 5) ∧
    (∃ s : State, EngineHasTurn s s ∧ s.ctl.phase = .decode ∧ s.ctl.dstate = .env ∧ s.fr.imageLen.toNat = 6) :=
  ⟨⟨{ decoding .env [] 0 with fr := { State.reset.fr with imageLen := 5 } }, engineHasTurn_empty rfl, rfl, rfl,
      by decide⟩,
    ⟨decoding .env [] 0, engineHasTurn_empty rfl, rfl, rfl, by decide⟩⟩

theorem witness_InitStepFillsWindowAndTree :
    ∃ s : State, EngineHasTurn s s ∧ s.ctl.phase = .decode ∧ s.ctl.dstate = .init :=
  ⟨decoding .init [] 0, engineHasTurn_empty rfl, rfl, rfl⟩

/-- The codes at the ends of both ranges: symbols 0 and 115, 116 and 313. -/
theorem witness_InitialSymbolCodes :
    (∀ body d, (onTree .sym body d).params = Params.default ∧
      (onTree .sym body d).huff = startHuff (onTree .sym body d).params) ∧
    (onTree .sym [0xC6, 0x00] 1).bitsFrom 0 9 = 396 + 0 ∧ 0 + 9 ≤ (onTree .sym [0xC6, 0x00] 1).bodyBits ∧
    (onTree .sym [0xFF, 0x80] 1).bitsFrom 0 9 = 396 + 115 ∧
    (onTree .sym [0x00] 1).bitsFrom 0 8 = 116 - 116 ∧ 0 + 8 ≤ (onTree .sym [0x00] 1).bodyBits ∧
    (onTree .sym [0xC5] 1).bitsFrom 0 8 = 313 - 116 :=
  ⟨fun _ _ => ⟨rfl, rfl⟩, by decide, by decide, by decide, by decide, by decide, by decide⟩

theorem witness_SymbolBoundaryTests :
    (∃ s : State, EngineHasTurn s s ∧ s.ctl.phase = .decode ∧ s.ctl.dstate = .sym ∧ s.out.valid = false ∧
      s.dec.outCount = s.env.declaredLen ∧ s.host.cfgCrcEn = true) ∧
    (∃ s : State, EngineHasTurn s s ∧ s.ctl.phase = .decode ∧ s.ctl.dstate = .sym ∧ s.out.valid = false ∧
      s.dec.outCount = s.env.declaredLen ∧ s.host.cfgCrcEn = false) ∧
    (∃ s : State, EngineHasTurn s s ∧ s.ctl.phase = .decode ∧ s.ctl.dstate = .sym ∧ s.out.valid = false ∧
      s.dec.outCount ≠ s.env.declaredLen ∧ s.dec.bitpos = s.bodyBits) :=
  ⟨⟨{ decoding .sym [] 0 with host := { State.reset.host with cfgCrcEn := true } }, engineHasTurn_empty rfl, rfl, rfl,
      rfl, rfl, rfl⟩,
    ⟨decoding .sym [] 0, engineHasTurn_empty rfl, rfl, rfl, rfl, rfl, rfl⟩,
    ⟨decoding .sym [] 1, engineHasTurn_empty rfl, rfl, rfl, rfl, by decide, by decide⟩⟩

theorem witness_SymbolBoundaryTests_truncated :
    ∃ s u : State, EngineHasTurn s s ∧ s.ctl.phase = .decode ∧ s.ctl.dstate = .sym ∧ s.out.valid = false ∧
      s.dec.outCount ≠ s.env.declaredLen ∧ s.dec.bitpos < s.bodyBits ∧ s.walk = .truncated u := by
  have h := test_walk_truncated
  split at h
  · cases h
  · next u hw =>
    exact ⟨onTree .sym [0xE6] 1, u, engineHasTurn_empty rfl, rfl, rfl, rfl, by decide, by decide, hw⟩
  · cases h

theorem witness_SymbolSteps_literal :
    ∃ (s : State) (c : Byte) (h : Huff), s.huff.update s.params c.toNat = some h := by
  have e := test_update
  cases hu : (startHuff Params.default).update Params.default 0x61 with
  | none => rw [hu] at e; cases e
  | some h => exact ⟨onTree .sym [] 1, 0x61, h, hu⟩

/-- V5's first symbol: 256 on the initial tree. -/
theorem test_update_match :
    ((startHuff Params.default).update Params.default 256).isSome = true := by decide +kernel

theorem witness_SymbolSteps_match :
    ∃ (s : State) (m : Byte) (h : Huff), s.huff.update s.params (256 + m.toNat) = some h := by
  obtain ⟨h, hu⟩ := Option.isSome_iff_exists.1 test_update_match
  exact ⟨onTree .sym [] 1, 0x00, h, hu⟩

/-- A tree, with the first match symbol, the last one, and the first number outside the alphabet. -/
theorem witness_TreeExecutesEverySymbol :
    TreeSound (onTree .sym [] 1).params (onTree .sym [] 1).huff ∧
    256 + (0x00 : Byte).toNat < (onTree .sym [] 1).params.nChar ∧
    256 + (0x39 : Byte).toNat + 1 = (onTree .sym [] 1).params.nChar ∧
    (onTree .sym [] 1).params.nChar ≤ 256 + (0x3A : Byte).toNat :=
  ⟨startHuff_treeSound _, by decide, by decide, by decide⟩

/-- Each class at both ends of its range, with exactly the bits it needs and with one fewer. -/
theorem witness_PositionStepsFollowTheTable :
    ((0x00 : Byte).toNat ≤ 0x1F ∧ (0x1F : Byte).toNat ≤ 0x1F) ∧
    (0x20 ≤ (0x20 : Byte).toNat ∧ (0x4F : Byte).toNat ≤ 0x4F) ∧
    (0x50 ≤ (0x50 : Byte).toNat ∧ (0x8F : Byte).toNat ≤ 0x8F) ∧
    (0x90 ≤ (0x90 : Byte).toNat ∧ (0xBF : Byte).toNat ≤ 0xBF) ∧
    (0xC0 ≤ (0xC0 : Byte).toNat ∧ (0xEF : Byte).toNat ≤ 0xEF) ∧ 0xF0 ≤ (0xF0 : Byte).toNat ∧
    (∀ extra ∈ [1, 2, 3, 4, 5, 6], ∃ s : State, s.dec.bitpos + extra = s.bodyBits) ∧
    (∀ extra ∈ [1, 2, 3, 4, 5, 6], ∃ s : State, s.dec.bitpos ≤ s.bodyBits ∧ s.bodyBits + 1 = s.dec.bitpos + extra) := by
  refine ⟨by decide, by decide, by decide, by decide, by decide, by decide, ?_, ?_⟩
  · intro extra h
    refine ⟨{ decoding .pos [0x00] 4 with dec := { State.reset.dec with bitpos := 8 - extra } }, ?_⟩
    have hb : (({ decoding .pos [0x00] 4 with dec := { State.reset.dec with bitpos := 8 - extra } } : State)).bodyBits
      = 8 := rfl
    rw [hb]
    simp only [List.mem_cons, List.not_mem_nil, or_false] at h
    show 8 - extra + extra = 8
    omega
  · intro extra h
    refine ⟨{ decoding .pos [0x00] 4 with dec := { State.reset.dec with bitpos := 9 - extra } }, ?_⟩
    have hb : (({ decoding .pos [0x00] 4 with dec := { State.reset.dec with bitpos := 9 - extra } } : State)).bodyBits
      = 8 := rfl
    rw [hb]
    simp only [List.mem_cons, List.not_mem_nil, or_false] at h
    show 9 - extra ≤ 8 ∧ 8 + 1 = 9 - extra + extra
    omega

/-- hi = 0 (000) with lo = 0, hi = 63 (11111111) with lo = 63; a body of 7 bits left. -/
theorem witness_PositionCodesRoundTrip :
    (∃ s : State, EngineHasTurn s s ∧ s.ctl.phase = .decode ∧ s.ctl.dstate = .pos ∧
      s.dec.bitpos + (hiCode 0).1 + 6 ≤ s.bodyBits ∧
      s.bitsFrom s.dec.bitpos ((hiCode 0).1 + 6) = 64 * (hiCode 0).2 + 0) ∧
    (∃ s : State, EngineHasTurn s s ∧ s.ctl.phase = .decode ∧ s.ctl.dstate = .pos ∧
      s.dec.bitpos + (hiCode 63).1 + 6 ≤ s.bodyBits ∧
      s.bitsFrom s.dec.bitpos ((hiCode 63).1 + 6) = 64 * (hiCode 63).2 + 63) ∧
    (∃ s : State, EngineHasTurn s s ∧ s.ctl.phase = .decode ∧ s.ctl.dstate = .pos ∧ s.dec.bitpos ≤ s.bodyBits ∧
      s.bodyBits + 1 = s.dec.bitpos + 8) :=
  ⟨⟨decoding .pos [0x00, 0x00] 4, engineHasTurn_empty rfl, rfl, rfl, by decide, by decide⟩,
    ⟨decoding .pos [0xFF, 0xFC] 4, engineHasTurn_empty rfl, rfl, rfl, by decide, by decide⟩,
    ⟨{ decoding .pos [0x00] 4 with dec := { State.reset.dec with bitpos := 1 } }, engineHasTurn_empty rfl, rfl, rfl,
      by decide, by decide⟩⟩

/-- The match cut, its last byte, and a byte before the last. -/
theorem witness_CopyStep :
    (∃ s : State, EngineHasTurn s s ∧ s.ctl.phase = .decode ∧ s.ctl.dstate = .copy ∧ s.out.valid = false ∧
      s.dec.outCount = s.env.declaredLen) ∧
    (∃ s : State, EngineHasTurn s s ∧ s.ctl.phase = .decode ∧ s.ctl.dstate = .copy ∧ s.out.valid = false ∧
      s.dec.outCount ≠ s.env.declaredLen ∧ s.dec.mLen.toNat = 1) :=
  ⟨⟨decoding .copy [] 0, engineHasTurn_empty rfl, rfl, rfl, rfl, rfl⟩,
    ⟨{ decoding .copy [] 1 with dec := { State.reset.dec with mLen := 1 } }, engineHasTurn_empty rfl, rfl, rfl, rfl,
      by decide, by decide⟩⟩

/-- Distance 1 over five bytes (V3), and the whole window as distance (V6b). -/
theorem witness_CopyRepeatsTheWindow :
    (∃ s : State, s.out.valid = false ∧ s.dec.wpos.toNat < s.params.N ∧
      s.dec.mSrc.toNat = (s.dec.wpos.toNat + s.params.N - 1) % s.params.N ∧ 5 ≤ s.dec.mLen.toNat ∧ 5 ≤ s.params.N ∧
      s.dec.outCount.toNat + 5 ≤ s.env.declaredLen.toNat) ∧
    (∃ s : State, s.out.valid = false ∧ s.dec.wpos.toNat < s.params.N ∧
      s.dec.mSrc.toNat = (s.dec.wpos.toNat + s.params.N - s.params.N) % s.params.N ∧ 3 ≤ s.dec.mLen.toNat ∧
      3 ≤ s.params.N ∧ s.dec.outCount.toNat + 3 ≤ s.env.declaredLen.toNat) :=
  ⟨⟨{ decoding .copy [] 6 with dec := { State.reset.dec with wpos := 1989, mSrc := 1988, outCount := 1, mLen := 5 } },
      rfl, by decide, by decide, by decide, by decide, by decide⟩,
    ⟨{ decoding .copy [] 4 with dec := { State.reset.dec with wpos := 1989, mSrc := 1989, outCount := 1, mLen := 3 } },
      rfl, by decide, by decide, by decide, by decide, by decide⟩⟩

theorem witness_CrcCheckStep :
    (∃ s : State, EngineHasTurn s s ∧ s.ctl.phase = .check ∧ s.out.valid = false ∧ s.params.val.crcScope = false ∧
      crcFinal s.params s.dec.crcCalc = s.env.crc) ∧
    (∃ s : State, EngineHasTurn s s ∧ s.ctl.phase = .check ∧ s.out.valid = false ∧ s.params.val.crcScope = false ∧
      crcFinal s.params s.dec.crcCalc ≠ s.env.crc) :=
  ⟨⟨{ State.reset with ctl := ⟨.check, .run, .csum, .sym⟩ }, engineHasTurn_empty rfl, rfl, rfl, rfl, by decide⟩,
    ⟨{ State.reset with ctl := ⟨.check, .run, .csum, .sym⟩, env := ⟨true, 1, 0⟩ }, engineHasTurn_empty rfl, rfl, rfl,
      rfl, by decide⟩⟩

/-- The four parameter sets of R233, each a legal one. -/
theorem witness_CrcCheckValues (poly init : Half) (reflected : Bool) :
    ∃ p : Params, p.val.crcPoly = poly ∧ p.val.crcInit = init ∧ p.val.crcRefin = reflected ∧
      p.val.crcRefout = reflected ∧ p.val.crcXorout = 0x0000 :=
  ⟨⟨{ RawParams.default with crcPoly := poly, crcInit := init, crcRefin := reflected, crcRefout := reflected },
    (Params.default).property⟩, rfl, rfl, rfl, rfl, rfl⟩

theorem witness_OtherInstructionsKeepMemory :
    mayStore .run = false ∧ (∃ t, exec .run State.reset = .next t) ∧ mayStore .rdImgData = false ∧
    (∃ t, exec .rdImgData State.reset = .next t) := ⟨rfl, ⟨_, rfl⟩, rfl, ⟨_, rfl⟩⟩

/-- A pending bit cleared by the host's write; BADCMD cleared by CLEAR. -/
theorem witness_StickyBitsAreClearedByTheHostAlone :
    (∃ s t : State, step s = .next t ∧ s.host.irqDone = true ∧ t.host.irqDone = false) ∧
    (∃ s t : State, step s = .next t ∧ s.host.irqErr = true ∧ t.host.irqErr = false) ∧
    (∃ s t : State, step s = .next t ∧ s.host.badcmd = true ∧ t.host.badcmd = false) :=
  ⟨⟨{ State.reset.complete with agenda := [.host (.write 0x058 0x3)] }, _, rfl, rfl, rfl⟩,
    ⟨{ State.reset.raise .aborted 0 0 0 with agenda := [.host (.write 0x058 0x3)] }, _, rfl, rfl, rfl⟩,
    ⟨{ State.reset.refuse with agenda := [.host (.command 5)] }, _, rfl, rfl, rfl⟩⟩

/-- A CTRL write during a run. -/
theorem witness_ConfigurationIsLatchedForTheRun :
    ∃ s t : State, step s = .next t ∧ s.busy = true ∧ t.busy = true ∧ t.host.ctrlStrict ≠ s.host.ctrlStrict :=
  ⟨{ starved .soh false with agenda := [.host (.write 0x008 0x3)] }, _, rfl, rfl, rfl, by decide +kernel⟩

/-- From ERROR: a wait, CLEAR, and RUN. -/
theorem witness_ErrorLastsUntilTheHostActs :
    (∃ s t : State, step s = .next t ∧ s.ctl.phase = .error ∧ (∀ rest, s.agenda ≠ .reset :: rest) ∧
      t.ctl.phase = .error) ∧
    (∃ s t : State, step s = .next t ∧ s.ctl.phase = .error ∧ (∀ rest, s.agenda ≠ .reset :: rest) ∧
      t.ctl.phase = .idle) ∧
    (∃ s t : State, step s = .next t ∧ s.ctl.phase = .error ∧ (∀ rest, s.agenda ≠ .reset :: rest) ∧
      t.ctl.phase = .frame) :=
  ⟨⟨State.reset.raise .aborted 7 0 0, _, rfl, rfl, (by intro rest h; cases h), rfl⟩,
    ⟨{ State.reset.raise .aborted 7 0 0 with agenda := [.host (.command 5)] }, _, rfl, rfl,
      (by intro rest h; cases h), rfl⟩,
    ⟨{ State.reset.raise .aborted 7 0 0 with agenda := [.host (.command 1)] }, _, rfl, rfl,
      (by intro rest h; cases h), rfl⟩⟩

/-- The three ways into DONE. -/
theorem witness_DoneIsReachedByCompletionAlone :
    (∃ s t : State, step s = .next t ∧ s.ctl.phase = .frame ∧ t.ctl.phase = .done) ∧
    (∃ s t : State, step s = .next t ∧ s.ctl.phase = .decode ∧ t.ctl.phase = .done) ∧
    (∃ s t : State, step s = .next t ∧ s.ctl.phase = .check ∧ t.ctl.phase = .done) :=
  ⟨⟨{ framing .csum 0x00 with ctl := ⟨.frame, .frameOnly, .csum, .env⟩ }, _, rfl, rfl, rfl⟩,
    ⟨decoding .sym [] 0, _, rfl, rfl, rfl⟩,
    ⟨{ State.reset with ctl := ⟨.check, .run, .csum, .sym⟩ }, _, rfl, rfl, rfl⟩⟩

/-- The invariants' premises, met by a state in the middle of a message and one in the middle of a match. -/
theorem witness_StepKeepsWellShaped :
    ∃ s t : State, s.wellShaped ∧ s.countersPositive ∧ step s = .next t ∧ t.ctl.fstate = .bdata :=
  ⟨framing .blen 0x03, _, ⟨rfl, by simp only [State.inRange]; decide +kernel⟩, by simp [State.countersPositive, framing], rfl, rfl⟩

theorem witness_StepKeepsCountersPositive :
    ∃ s t : State, s.wellShaped ∧ s.countersPositive ∧ step s = .next t ∧ t.ctl.dstate = .sym :=
  ⟨{ decoding .copy [] 1 with dec := { State.reset.dec with mLen := 1 } }, _, ⟨rfl, by simp only [State.inRange]; decide +kernel⟩,
    by simp [State.countersPositive, decoding], rfl, rfl⟩

theorem witness_StepKeepsProgress :
    ∃ s t : State, s.progressOk ∧ step s = .next t ∧ s.ctl.phase = .decode ∧ t.ctl.phase = .done :=
  ⟨{ decoding .sym [] 0 with dec := { State.reset.dec with wpos := 1988 } }, _,
    by simp only [State.progressOk, State.decoding, decoding]; decide, rfl, rfl, rfl⟩

/-- The nodes' frequencies in a tree of the initial tree's shape: leaves of 104 and 105, which sum to MAX_FREQ. -/
def fullFreq : Nat → Nat → Nat
  | 0, _ => 0
  | fuel + 1, k =>
    if k < 202 then 104 else if k < 314 then 105
    else fullFreq fuel (2 * (k - 314)) + fullFreq fuel (2 * (k - 314) + 1)

/-- A tree whose root has reached MAX_FREQ. -/
def fullHuff : Huff :=
  { startHuff Params.default with
    freq := (List.range 627).map (fun k => BitVec.ofNat 16 (fullFreq 12 k)) ++ [0xFFFF] }

theorem fullFreq_node : ∀ k, k < 627 → 1 ≤ fullFreq 12 k ∧ fullFreq 12 k ≤ 32768 ∧
    (k + 1 < 627 → fullFreq 12 k ≤ fullFreq 12 (k + 1)) ∧
    (314 ≤ k → fullFreq 12 (2 * (k - 314)) + fullFreq 12 (2 * (k - 314) + 1) = fullFreq 12 k) := by
  decide +kernel

theorem fullHuff_freqAt {k : Nat} (h : k < 627) : fullHuff.freqAt k = some (fullFreq 12 k) := by
  have hb := (fullFreq_node k h).2.1
  simp only [fullHuff, Huff.freqAt]
  rw [List.getElem?_append_left (by simpa using h)]
  simp [h]
  omega

theorem fullHuff_treeSound : TreeSound Params.default fullHuff := by
  have hT : Params.default.T = 627 := by decide
  have hR : Params.default.root = 626 := by decide
  have hN : Params.default.nChar = 314 := by decide
  have at_node : ∀ {k f}, k < 627 → fullHuff.freqAt k = some f → fullFreq 12 k = f := fun hk h =>
    Option.some.inj ((fullHuff_freqAt hk).symm.trans h)
  refine (startHuff_treeSound Params.default).with_freq _ (by simp [hT]) ?_ ?_ (by simp [Huff.freqAt, hT]) ?_ ?_
  · intro k f g hk hf hg
    have ef := at_node (by omega) hf
    have eg := at_node (by omega) hg
    have hr := (fullFreq_node k (by omega)).2.2.1 (by omega)
    omega
  · intro k f hk hf
    have ef := at_node (by omega) hf
    have hp := (fullFreq_node k (by omega)).1
    omega
  · intro f hf
    have ef := at_node (by omega) hf
    have hb := (fullFreq_node _ (by omega : Params.default.root < 627)).2.1
    simp only [Config.MAX_FREQ]
    omega
  · intro k c f g hc hlt hf hg
    rw [startHuff_sonAt, hN, hT] at hc
    split at hc
    · exact absurd (Option.some.inj hc) (by omega)
    · split at hc
      · have e := Option.some.inj hc
        subst e
        have ef := at_node (by omega) hf
        have eg := at_node (by omega) hg
        have es := (fullFreq_node k (by omega)).2.2.2 (by omega)
        exact (fullHuff_freqAt (by omega)).trans (congrArg some (by omega))
      · cases hc

/-- The initial tree, a symbol of its alphabet, and a root below MAX_FREQ; a tree whose root has reached it. -/
theorem witness_UpdateKeepsTreeSound (p : Params) :
    (TreeSound p (startHuff p) ∧ 0 < p.nChar ∧
      ∃ f, (startHuff p).freqAt p.root = some f ∧ f ≠ Config.MAX_FREQ) ∧
    TreeSound Params.default fullHuff ∧ fullHuff.freqAt Params.default.root = some Config.MAX_FREQ := by
  have h := params_alphabet p
  have hf := startFreq_le p p.root
  refine ⟨⟨startHuff_treeSound p, by omega, startFreq p p.root, startHuff_freqAt p (by omega), ?_⟩,
    fullHuff_treeSound, by decide +kernel⟩
  simp only [Config.MAX_FREQ]
  omega

theorem witness_HalvingKeepsTreeSound (p : Params) :
    (TreeSound p (startHuff p) ∧ ∃ d k g, d < p.nChar ∧ (startHuff p).prntAt (p.T + d) = some k ∧
      (startHuff p).freqAt k = some g) ∧
    ∃ c d k m, c < p.nChar ∧ d < p.nChar ∧ (startHuff p).prntAt (p.T + c) = some k ∧
      (startHuff p).prntAt (p.T + d) = some m ∧ k < m := by
  have h := params_alphabet p
  exact ⟨⟨startHuff_treeSound p, 0, 0, startFreq p 0, by omega, startHuff_prntAt_leaf p (by omega),
    startHuff_freqAt p (by omega)⟩, 0, 1, 0, 1, by omega, by omega, startHuff_prntAt_leaf p (by omega),
    startHuff_prntAt_leaf p (by omega), by omega⟩

/-- A state in D_SYM on a tree, from which a step answers. -/
theorem witness_StepKeepsTreeReady :
    ∃ s t : State, s.treeReady ∧ step s = .next t ∧ s.ctl.phase = .decode ∧ s.ctl.dstate = .sym :=
  ⟨onTree .sym [] 1, _, fun _ _ => startHuff_treeSound _, rfl, rfl, rfl⟩

end Sys2Proof.Tests
end

section
/-!
The engine's turn position by position: where it waits and which word it reads. Settles O1 and O2.
-/

namespace Sys2Proof.Machine

/-! ### The engine's turn and the words it reads -/

/-- Where the engine has the turn, the step is its turn (log 2). -/
theorem step_eq_engineTurn {s e : State} (h : EngineHasTurn s e) : step s = engineTurn e := by
  rcases h with ⟨ha, rfl⟩ | ⟨rest, ha, rfl⟩ | ⟨m, rest, ha, hm, rfl⟩
  · simp [step, stepOnce, ha]
  · simp [step, stepOnce, ha, Move.enabled, runMove]
  · simp [step, stepOnce, ha, hm]

/-- The agenda's first move, where it is enabled, is the step (log 2). -/
theorem step_eq_runMove {s : State} {m : Move} {rest : List Move} (ha : s.agenda = m :: rest)
    (hm : m.enabled s = true) : step s = runMove m { s with agenda := rest } := by
  simp [step, stepOnce, ha, hm]

theorem runWord_of_decode {w : Raw} {i : Instr} (h : decode w = .instr i) (s : State) : runWord w s = exec i s := by
  simp [runWord, h]

/-! ### The engine's turn by phase (00_scope.md R17) -/

theorem engineTurn_idle {s : State} (h : s.ctl.phase = .idle) : engineTurn s = .next s := by
  simp [engineTurn, h]

theorem engineTurn_done {s : State} (h : s.ctl.phase = .done) : engineTurn s = .next s := by
  simp [engineTurn, h]

theorem engineTurn_error {s : State} (h : s.ctl.phase = .error) : engineTurn s = .next s := by
  simp [engineTurn, h]

theorem engineTurn_frame {s : State} (h : s.ctl.phase = .frame) : engineTurn s = frameTurn s := by
  simp [engineTurn, h]

theorem engineTurn_check {s : State} (h : s.ctl.phase = .check) : engineTurn s = .next (stepCheck s) := by
  simp [engineTurn, h]

theorem engineTurn_env {s : State} (hp : s.ctl.phase = .decode) (hd : s.ctl.dstate = .env) :
    engineTurn s = .next (stepEnv s) := by
  simp [engineTurn, hp, hd]

theorem engineTurn_init {s : State} (hp : s.ctl.phase = .decode) (hd : s.ctl.dstate = .init) :
    engineTurn s = .next (stepInit s) := by
  simp [engineTurn, hp, hd]

theorem engineTurn_sym {s : State} (hp : s.ctl.phase = .decode) (hd : s.ctl.dstate = .sym) :
    engineTurn s = symTurn s := by
  simp [engineTurn, hp, hd]

theorem engineTurn_pos {s : State} (hp : s.ctl.phase = .decode) (hd : s.ctl.dstate = .pos) :
    engineTurn s = posTurn s := by
  simp [engineTurn, hp, hd]

theorem engineTurn_copy {s : State} (hp : s.ctl.phase = .decode) (hd : s.ctl.dstate = .copy) :
    engineTurn s = .next (stepCopy s) := by
  simp [engineTurn, hp, hd]

/-! ### Turns that wait -/

theorem frameTurn_waits {s : State} (hv : s.inp.valid = false) (he : s.inp.ended = false) :
    frameTurn s = .next s := by
  simp [frameTurn, hv, he]

theorem symTurn_waits {s : State} (h : s.out.valid = true) : symTurn s = .next s := by
  simp [symTurn, h]

theorem stepCopy_waits {s : State} (h : s.out.valid = true) : stepCopy s = s := by
  simp [stepCopy, h]

theorem stepCheck_waits {s : State} (h : s.out.valid = true) : stepCheck s = s := by
  simp [stepCheck, h]

/-! ### Turns that read a word -/

theorem frameTurn_offered {s : State} (h : s.inp.valid = true) :
    frameTurn s = runWord (.frameByte (frameWord s.ctl.fstate s.inp.data)) s := by
  simp [frameTurn, h]

theorem symTurn_leaf {s u : State} {c : Nat} (ho : s.out.valid = false) (hc : s.dec.outCount ≠ s.env.declaredLen)
    (hb : s.dec.bitpos ≠ s.bodyBits) (hw : s.walk = .leaf c u) (hlt : c < 512) :
    symTurn s = runWord (.lzhSym (BitVec.ofNat 9 c)) u := by
  simp [symTurn, ho, hc, hb, hw, hlt]

/-- The first of the bits is the most significant. -/
theorem State.bitsFrom_succ_front (s : State) (k n : Nat) :
    s.bitsFrom k (n + 1) = 2 ^ n * (s.bodyBit k).toNat + s.bitsFrom (k + 1) n := by
  induction n with
  | zero => simp [State.bitsFrom]
  | succ n ih =>
    have hk : k + (n + 1) = k + 1 + n := by omega
    rw [State.bitsFrom, ih, State.bitsFrom, hk, pow_succ]
    ring

theorem State.skipBit_bitsFrom (s : State) (k n : Nat) : s.skipBit.bitsFrom k n = s.bitsFrom k n := by
  induction n with
  | zero => rfl
  | succ n ih => simp [State.bitsFrom, ih]

/-- GetBits(n) with n bits left appends them to `v` (42_lzhuf.md R182; 20_memory.md R79). -/
theorem State.getBits_of_left : ∀ (n v : Nat) (s : State), s.dec.bitpos + n ≤ s.bodyBits →
    State.getBits n v s = .ok (2 ^ n * v + s.bitsFrom s.dec.bitpos n, s.atBit (s.dec.bitpos + n))
  | 0, v, s, _ => by simp [State.getBits, State.bitsFrom, State.atBit_self]
  | n + 1, v, s, h => by
    rcases State.getBit_spec s with ⟨_, e⟩ | ⟨hb, _⟩
    · have ih := State.getBits_of_left n (2 * v + (s.bodyBit s.dec.bitpos).toNat) s.skipBit
        (by simp only [State.skipBit_dec, State.skipBit_bodyBits]; omega)
      simp only [State.getBits, e, ih, State.skipBit_atBit, State.skipBit_bitsFrom, State.skipBit_dec,
        State.bitsFrom_succ_front, Except.ok.injEq, Prod.mk.injEq]
      exact ⟨by ring, congrArg s.atBit (by omega)⟩
    · omega

theorem posTurn_of_left {s : State} (h : s.dec.bitpos + 8 ≤ s.bodyBits) :
    posTurn s = runWord (.lzhPos (BitVec.ofNat 8 (s.bitsFrom s.dec.bitpos 8))) (s.atBit (s.dec.bitpos + 8)) := by
  simp [posTurn, State.getBits_of_left 8 0 s h]

/-- Settles O1: the host's move at the head of the agenda and the three words that the engine's turn reads. -/
theorem stepRunsDecodedInstruction : Obligations.StepRunsDecodedInstruction := by
  refine ⟨?host, ?byte, ?symbol, ?position⟩
  case host =>
    intro s op rest i ha hd
    rw [step_eq_runMove ha rfl]
    exact runWord_of_decode hd _
  case byte =>
    intro s e i he hp hv hd
    rw [step_eq_engineTurn he, engineTurn_frame hp, frameTurn_offered hv, runWord_of_decode hd]
  case symbol =>
    intro s e u c i he hp hst ho hc hb hw hlt hd
    rw [step_eq_engineTurn he, engineTurn_sym hp hst, symTurn_leaf ho hc hb hw hlt, runWord_of_decode hd]
  case position =>
    intro s e i he hp hst hb hd
    rw [step_eq_engineTurn he, engineTurn_pos hp hst, posTurn_of_left hb, runWord_of_decode hd]
    rfl

/-- Settles O2: in each of the listed positions the engine's turn waits. -/
theorem waitingEngineChangesNothing : Obligations.WaitingEngineChangesNothing := by
  intro s e he hwait
  rw [step_eq_engineTurn he]
  rcases hwait with hi | hd | hr | ⟨hf, hv, hn⟩ | ⟨hp, hs | hc, ho⟩ | ⟨hk, ho⟩
  · exact engineTurn_idle hi
  · exact engineTurn_done hd
  · exact engineTurn_error hr
  · rw [engineTurn_frame hf, frameTurn_waits hv hn]
  · rw [engineTurn_sym hp hs, symTurn_waits ho]
  · rw [engineTurn_copy hp hc, stepCopy_waits ho]
  · rw [engineTurn_check hk, stepCheck_waits ho]

end Sys2Proof.Machine
end

section
/-!
What holds after every move holds after a step, and everything a host step can do, said once.
-/

namespace Sys2Proof.Machine

/-! ### What an answer's next state satisfies -/

/-- The next state, where the result has one, satisfies `P`. -/
def Ensures (P : State → Prop) (r : Result) : Prop := ∀ t, r = .next t → P t

@[simp] theorem ensures_next (P : State → Prop) (t : State) : Ensures P (.next t) ↔ P t := by
  simp [Ensures]

@[simp] theorem ensures_fault (P : State → Prop) (f : Fault) : Ensures P (.fault f) := by
  simp [Ensures]

@[simp] theorem ensures_refused (P : State → Prop) (r : Refusal) : Ensures P (.refused r) := by
  simp [Ensures]

theorem Ensures.next {P : State → Prop} {t : State} (h : P t) : Ensures P (.next t) := (ensures_next P t).2 h

/-- What holds after every move holds after a step (log 2). -/
theorem step_ensures {P : State → Prop} {s : State} (engine : ∀ e, EngineHasTurn s e → Ensures P (engineTurn e))
    (move : ∀ m rest, s.agenda = m :: rest → m ≠ .engine → Ensures P (runMove m { s with agenda := rest })) :
    Ensures P (step s) := by
  rcases step_cases s with ⟨ha, e⟩ | ⟨m, rest, ha, _, e⟩ | ⟨m, rest, ha, hm, e⟩
  · exact e ▸ engine s (.inl ⟨ha, rfl⟩)
  · by_cases h : m = .engine
    · subst h
      exact e ▸ engine _ (.inr (.inl ⟨rest, ha, rfl⟩))
    · exact e ▸ move m rest ha h
  · exact e ▸ engine s (.inr (.inr ⟨m, rest, ha, hm, rfl⟩))

/-- What holds of a state with every agenda holds of the state in which the engine takes its turn. -/
theorem EngineHasTurn.inherits {P : State → Prop} {s e : State} (h : EngineHasTurn s e)
    (hP : ∀ rest, P { s with agenda := rest }) : P e := by
  rcases h with ⟨_, rfl⟩ | ⟨rest, _, rfl⟩ | ⟨_, _, _, _, rfl⟩
  · exact hP e.agenda
  · exact hP rest
  · exact hP e.agenda

/-! ### The host's steps (40_host_commands.md) -/

/-- Everything a host step can do to the state: registers of the host's side alone, or, where the block is not busy,
the image, its length, the start of a run or the return to IDLE, or, where it is busy, an abort. -/
inductive HostEffect (s : State) : State → Prop where
  /-- Reads, refusals, ignored writes, and writes of CTRL, IMG_ADDR and IRQ_STATUS. -/
  | regs (h : HostRegs) (v : Word) : HostEffect s { s with host := h, rdata := v }
  /-- A write of IMAGE_LEN (R126). -/
  | imageLen (v : Word) : s.busy = false → v.toNat ≤ s.params.cap →
      HostEffect s { s with fr := { s.fr with imageLen := v } }
  /-- A write of IMG_DATA (R128). -/
  | imgData (b : Byte) : s.busy = false → HostEffect s (s.storeImgData b).advanceImgAddr
  /-- RUN, FRAME_ONLY and DECODE_ONLY (R112 to R114). -/
  | start (keep : Bool) (mode : Mode) (phase : Phase) : s.busy = false → phase = .frame ∨ phase = .decode →
      HostEffect s (s.start keep mode phase)
  /-- ABORT (R116). -/
  | abort : s.busy = true → HostEffect s (s.raise .aborted s.fr.consumed 0 0)
  /-- CLEAR (R117). -/
  | clear : s.busy = false → HostEffect s s.clearPhase

theorem HostEffect.refl (s : State) : HostEffect s s := .regs s.host s.rdata

theorem HostEffect.answer (s : State) (v : Word) : HostEffect s (s.answer v) := .regs s.host v

theorem HostEffect.refuse (s : State) : HostEffect s s.refuse := .regs { s.host with badcmd := true } s.rdata

theorem start_hostEffect (s : State) (keep : Bool) (mode : Mode) {phase : Phase}
    (hp : phase = .frame ∨ phase = .decode) : HostEffect s (s.start keep mode phase) := by
  cases hb : s.busy with
  | true => rw [State.start_busy hb]; exact .refuse s
  | false => exact .start keep mode phase hb hp

theorem execAbort_hostEffect (s : State) : Ensures (HostEffect s) (execAbort s) := by
  unfold execAbort
  split
  · next hb => simpa using HostEffect.abort hb
  · simpa using HostEffect.refl s

theorem execClear_hostEffect (s : State) : Ensures (HostEffect s) (execClear s) := by
  unfold execClear
  split
  · simpa using HostEffect.refuse s
  · next hb => simpa using HostEffect.clear (by simpa using hb)

theorem runCommand_hostEffect (v : Word) (s : State) : Ensures (HostEffect s) (runCommand v s) := by
  unfold runCommand
  split
  case h_1 => exact .next (.refl s)
  case h_2 => exact .next (start_hostEffect s false .run (.inl rfl))
  case h_3 => exact .next (start_hostEffect s false .frameOnly (.inl rfl))
  case h_4 => exact .next (start_hostEffect s true .decodeOnly (.inr rfl))
  case h_5 => exact execAbort_hostEffect s
  case h_6 => exact execClear_hostEffect s
  all_goals exact .next (.refuse s)

/-- A command word and a write of it to CMD run the same command (R110). -/
theorem exec_decodeCmd (v : Word) (s : State) : exec (decodeCmd v) s = runCommand v s := by
  unfold decodeCmd runCommand
  generalize (v.extractLsb' 0 4).toNat = code
  match code with
  | 0 | 1 | 2 | 3 | 4 | 5 | 6 | 7 | 8 | 9 | 10 | 11 | 12 | 13 | 14 => rfl
  | _ + 15 => rfl

theorem execRdImgData_hostEffect (s : State) : Ensures (HostEffect s) (execRdImgData s) := by
  unfold execRdImgData
  split
  · simpa using HostEffect.answer s 0
  · exact .next (.regs s.advanceImgAddr.host (field s.imgDataByte 0))

theorem exec_decodeRd_hostEffect (offset : BitVec 12) (s : State) :
    Ensures (HostEffect s) (exec (decodeRd offset) s) := by
  simp only [decodeRd]
  split
  · split
    case h_19 => exact execRdImgData_hostEffect s
    all_goals exact .next (.answer s _)
  · repeat' split
    all_goals exact .next (.answer s _)

theorem execWrImageLen_hostEffect (v : Word) (s : State) : Ensures (HostEffect s) (execWrImageLen v s) := by
  unfold execWrImageLen
  split
  · simpa using HostEffect.refuse s
  · next h =>
    simp only [Bool.or_eq_true, decide_eq_true_eq, not_or, Bool.not_eq_true, Nat.not_lt] at h
    obtain ⟨hb, hv⟩ := h
    exact .next (.imageLen v hb hv)

theorem execWrImgData_hostEffect (v : Word) (s : State) : Ensures (HostEffect s) (execWrImgData v s) := by
  unfold execWrImgData
  split
  · simpa using HostEffect.refuse s
  · next hb => exact .next (.imgData _ (by simpa using hb))

theorem exec_decodeWr_hostEffect (offset : BitVec 12) (v : Word) (s : State) :
    Ensures (HostEffect s) (exec (decodeWr offset v) s) := by
  simp only [decodeWr]
  split
  · split
    case h_3 => exact .next (.regs _ s.rdata)
    case h_4 => exact runCommand_hostEffect v s
    case h_17 => exact execWrImageLen_hostEffect v s
    case h_18 => exact .next (.regs _ s.rdata)
    case h_19 => exact execWrImgData_hostEffect v s
    case h_23 => exact .next (.regs _ s.rdata)
    all_goals exact .next (.refl s)
  · repeat' split
    all_goals exact .next (.refl s)

/-- A host step does what `HostEffect` lists. -/
theorem runWord_hostEffect (op : HostOp) (s : State) : Ensures (HostEffect s) (runWord op.word s) := by
  cases op with
  | command w =>
    rw [show runWord (HostOp.command w).word s = runCommand w s from exec_decodeCmd w s]
    exact runCommand_hostEffect w s
  | read offset => exact exec_decodeRd_hostEffect offset s
  | write offset v => exact exec_decodeWr_hostEffect offset v s

end Sys2Proof.Machine
end

section
/-!
The down-counters stay positive (00_scope.md R63), move by move and position by position. Settles O55.
-/

namespace Sys2Proof.Machine

open Sys2Proof.Config (Params)

/-! ### The down-counters by position (00_scope.md R63) -/

/-- The framer's counter that its position decrements is positive. -/
def FramerLive (f : FState) (r : FramerRegs) : Prop :=
  match f with
  | .subj | .offs => r.hdrRem ≠ 0
  | .bdata => r.blkRem ≠ 0
  | .lead => r.leadCnt.toNat < 6
  | _ => True

/-- The decoder's counter that its position decrements is positive, and a match's symbol is one. -/
def DecoderLive (d : DState) (r : DecRegs) (p : Params) : Prop :=
  match d with
  | .pos => 256 ≤ r.sym.toNat ∧ r.sym.toNat < p.nChar
  | .copy => r.mLen ≠ 0
  | _ => True

theorem countersPositive_iff (s : State) :
    s.countersPositive ↔
      match s.ctl.phase with
      | .frame => FramerLive s.ctl.fstate s.fr
      | .decode => DecoderLive s.ctl.dstate s.dec s.params
      | _ => True := by
  unfold State.countersPositive
  cases s.ctl.phase
  case frame => cases s.ctl.fstate <;> simp [FramerLive]
  case decode => cases s.ctl.dstate <;> simp [DecoderLive]
  all_goals simp

theorem countersPositive_frame {s : State} (h : s.ctl.phase = .frame) :
    s.countersPositive ↔ FramerLive s.ctl.fstate s.fr := by
  rw [countersPositive_iff, h]

theorem countersPositive_decode {s : State} (h : s.ctl.phase = .decode) :
    s.countersPositive ↔ DecoderLive s.ctl.dstate s.dec s.params := by
  rw [countersPositive_iff, h]

/-- Nothing is decremented where the engine has no run. -/
theorem countersPositive_of_not_busy {s : State} (h : s.busy = false) : s.countersPositive := by
  rw [countersPositive_iff]
  cases hp : s.ctl.phase <;> simp_all [State.busy]

theorem countersPositive_of_error {s : State} (h : s.ctl.phase = .error) : s.countersPositive :=
  countersPositive_of_not_busy (by simp [State.busy, h])

theorem countersPositive_of_done {s : State} (h : s.ctl.phase = .done) : s.countersPositive :=
  countersPositive_of_not_busy (by simp [State.busy, h])

/-- The counters' condition reads the control state, the two units' registers and the parameters alone. -/
theorem countersPositive_congr {s t : State} (hc : t.ctl = s.ctl) (hf : t.fr = s.fr) (hd : t.dec = s.dec)
    (hp : t.params = s.params) : t.countersPositive ↔ s.countersPositive := by
  rw [countersPositive_iff, countersPositive_iff, hc, hf, hd, hp]

/-! ### The host's steps -/

theorem HostEffect.countersPositive {s t : State} (h : HostEffect s t) (hs : s.countersPositive) :
    t.countersPositive := by
  cases h with
  | regs h v => exact (countersPositive_congr rfl rfl rfl rfl).2 hs
  | imageLen v hb => exact countersPositive_of_not_busy hb
  | imgData b hb =>
    have hc : (s.storeImgData b).ctl = s.ctl := by unfold State.storeImgData; split <;> rfl
    exact countersPositive_of_not_busy (by simpa [State.busy, hc] using hb)
  | start keep mode phase hb hp =>
    rw [State.start_idle hb, countersPositive_iff]
    rcases hp with rfl | rfl <;> trivial
  | abort => exact countersPositive_of_error rfl
  | clear => exact countersPositive_of_not_busy rfl

/-- The moves of the agents around the engine. -/
theorem runMove_countersPositive {m : Move} {s : State} (hm : m ≠ .engine) (hs : s.countersPositive) :
    Ensures State.countersPositive (runMove m s) := by
  cases m with
  | host op => exact fun t ht => (runWord_hostEffect op s t ht).countersPositive hs
  | push b => exact .next ((countersPositive_congr rfl rfl rfl rfl).2 hs)
  | endInput => exact .next ((countersPositive_congr rfl rfl rfl rfl).2 hs)
  | clearEnd => exact .next ((countersPositive_congr rfl rfl rfl rfl).2 hs)
  | take => exact .next ((countersPositive_congr rfl rfl rfl rfl).2 hs)
  | engine => exact absurd rfl hm
  | reset => exact .next (countersPositive_of_not_busy rfl)

/-! ### The framer's bytes (41_framer.md R141 to R151)

A byte that raises an error ends the run; one that does not leaves the framer at a position whose counter is loaded or
still positive. -/

theorem leadCnt_succ_lt {n : BitVec 3} (h : n.toNat < 6) (hne : n + 1 ≠ 6) : (n + 1).toNat < 6 := by
  revert n
  decide

section
variable {s : State} (b : Byte) (hp : s.ctl.phase = .frame)
include hp

/-- The next state is in FRAME at a position, its counter being positive. -/
theorem countersPositive_of_fstate {t : State} (f : FState) (hc : t.ctl = { s.ctl with fstate := f })
    (hl : FramerLive f t.fr) : t.countersPositive := by
  rw [countersPositive_frame (by rw [hc]; exact hp), hc]
  exact hl

theorem soh_byte_countersPositive : Ensures State.countersPositive (exec (decodeByte .soh b) s) := by
  simp only [decodeByte]
  split
  · exact .next (countersPositive_of_fstate hp .hlen rfl trivial)
  · exact .next (countersPositive_of_error rfl)

/-- A header_len that is taken loads hdr_rem with at least 2 (R142). -/
theorem hlen_byte_countersPositive : Ensures State.countersPositive (exec (decodeByte .hlen b) s) := by
  simp only [decodeByte]
  split
  · exact .next (countersPositive_of_error rfl)
  · next hb =>
    have hb0 : b ≠ 0 := by rintro rfl; exact hb (by decide)
    exact .next (countersPositive_of_fstate hp .subj rfl hb0)

/-- A subject byte that uses up the header is an error (R143). -/
theorem subj_byte_countersPositive (hf : s.ctl.fstate = .subj) :
    Ensures State.countersPositive (exec (decodeByte .subj b) s) := by
  simp only [decodeByte]
  split
  · simp only [exec, execSubjNul]
    split
    · exact .next (countersPositive_of_error rfl)
    · next h => exact .next (countersPositive_of_fstate hp .offs rfl h)
  · simp only [exec, execSubjByte]
    split
    · exact .next (countersPositive_of_error rfl)
    · next h => exact .next (countersPositive_of_fstate hp .subj (by simp [State.writeSubj, ← hf]) h)

/-- A digit that uses up the header is an error, and NUL leaves the header (R144). -/
theorem offs_byte_countersPositive (hf : s.ctl.fstate = .offs) :
    Ensures State.countersPositive (exec (decodeByte .offs b) s) := by
  simp only [decodeByte]
  split
  · simp only [exec, execOffsDigit]
    split
    · exact .next (countersPositive_of_error rfl)
    · split
      · exact .next (countersPositive_of_error rfl)
      · next h => exact .next (countersPositive_of_fstate hp .offs (by simp [← hf]) h)
  · split
    · simp only [exec, execOffsNul]
      split
      · exact .next (countersPositive_of_error rfl)
      · split
        · exact .next (countersPositive_of_error rfl)
        · refine .next (countersPositive_of_fstate hp _ rfl ?_)
          split <;> trivial
    · exact .next (countersPositive_of_error rfl)

theorem rstx_byte_countersPositive : Ensures State.countersPositive (exec (decodeByte .rstx b) s) := by
  simp only [decodeByte]
  split
  · exact .next (countersPositive_of_fstate hp .rlen rfl trivial)
  · exact .next (countersPositive_of_error rfl)

/-- The resume block's length byte clears lead_cnt (R146). -/
theorem rlen_byte_countersPositive : Ensures State.countersPositive (exec (decodeByte .rlen b) s) := by
  simp only [decodeByte]
  split
  · exact .next (countersPositive_of_fstate hp .lead rfl (by decide : (0 : BitVec 3).toNat < 6))
  · exact .next (countersPositive_of_error rfl)

/-- The sixth lead byte leaves F_LEAD (R147). -/
theorem lead_byte_countersPositive (hf : s.ctl.fstate = .lead) (hn : s.fr.leadCnt.toNat < 6) :
    Ensures State.countersPositive (exec (decodeByte .lead b) s) := by
  simp only [decodeByte, exec, execLeadByte]
  split
  · exact .next (countersPositive_of_fstate hp .mark rfl trivial)
  · next h => exact .next (countersPositive_of_fstate hp .lead (by simp [← hf]) (leadCnt_succ_lt hn h))

theorem mark_byte_countersPositive : Ensures State.countersPositive (exec (decodeByte .mark b) s) := by
  simp only [decodeByte]
  split
  · exact .next (countersPositive_of_fstate hp .blen rfl trivial)
  · split
    · exact .next (countersPositive_of_fstate hp .csum rfl trivial)
    · exact .next (countersPositive_of_error rfl)

/-- A block of length 0 has no F_BDATA (R149). -/
theorem blen_byte_countersPositive : Ensures State.countersPositive (exec (decodeByte .blen b) s) := by
  simp only [decodeByte]
  split
  · refine .next (countersPositive_of_fstate hp _ rfl ?_)
    split
    · trivial
    · next hb => exact hb
  · exact .next (countersPositive_of_error rfl)

/-- The last byte of a block leaves F_BDATA (R150). -/
theorem bdata_byte_countersPositive (hf : s.ctl.fstate = .bdata) :
    Ensures State.countersPositive (exec (decodeByte .bdata b) s) := by
  simp only [decodeByte, exec, execBlkData]
  split
  · exact .next (countersPositive_of_error rfl)
  · split
    · exact .next (countersPositive_of_fstate hp .mark rfl trivial)
    · next h => exact .next (countersPositive_of_fstate hp .bdata (by simp [State.writeImg, ← hf]) h)

omit hp in
/-- The checksum byte ends the framing: an error, DONE, or the decoder's first position (R151). -/
theorem csum_byte_countersPositive : Ensures State.countersPositive (exec (decodeByte .csum b) s) := by
  simp only [decodeByte, exec, execCsum]
  split
  · exact .next (countersPositive_of_error rfl)
  · split
    · exact .next ((countersPositive_decode rfl).2 trivial)
    · exact .next (countersPositive_of_done rfl)

theorem frame_byte_countersPositive (hs : s.countersPositive) :
    Ensures State.countersPositive (exec (decodeByte s.ctl.fstate b) s) := by
  cases hf : s.ctl.fstate with
  | soh => exact soh_byte_countersPositive b hp
  | hlen => exact hlen_byte_countersPositive b hp
  | subj => exact subj_byte_countersPositive b hp hf
  | offs => exact offs_byte_countersPositive b hp hf
  | rstx => exact rstx_byte_countersPositive b hp
  | rlen => exact rlen_byte_countersPositive b hp
  | lead =>
    rw [countersPositive_frame hp, hf] at hs
    exact lead_byte_countersPositive b hp hf hs
  | mark => exact mark_byte_countersPositive b hp
  | blen => exact blen_byte_countersPositive b hp
  | bdata => exact bdata_byte_countersPositive b hp hf
  | csum => exact csum_byte_countersPositive b

theorem frameTurn_countersPositive (hs : s.countersPositive) : Ensures State.countersPositive (frameTurn s) := by
  unfold frameTurn
  split
  · rw [runWord_frame]
    exact frame_byte_countersPositive _ hp hs
  · split
    · exact .next (countersPositive_of_error rfl)
    · exact .next hs

end

/-! ### The alphabet's bound on a decoded symbol (42_lzhuf.md R186, R188) -/

theorem reparentFrom_sameSize {t : Nat} : ∀ {i : Nat} {sons : List Half} {h h' : Huff},
    reparentFrom t i sons h = some h' → h.SameSize h'
  | _, [], h, h', e => by
    cases e
    exact .refl h
  | i, k :: rest, h, h', e => by
    unfold reparentFrom at e
    split at e
    · cases e
    · next e1 => exact (Huff.setParent_sameSize e1).trans (reparentFrom_sameSize e)

/-- Halving writes prnt entries in place. -/
theorem reconst_prnt_length {p : Params} {h h' : Huff} (e : reconst p h = some h') :
    h'.prnt.length = h.prnt.length := by
  simp only [reconst] at e
  split at e
  · split at e
    · cases e
    · exact (reparentFrom_sameSize e).2.2
  · cases e

theorem Huff.halvedIfFull_prnt_length {p : Params} {h h' : Huff} (e : h.halvedIfFull p = some h') :
    h'.prnt.length = h.prnt.length := by
  unfold Huff.halvedIfFull at e
  split at e
  · cases e
  · split at e
    · exact reconst_prnt_length e
    · cases e; rfl

/-- An update that succeeds is of a symbol of the alphabet: the tables have no prnt entry for another one. -/
theorem Huff.update_symbol_lt {p : Params} {h h' : Huff} {c : Nat} (hl : h.prnt.length = p.T + p.nChar)
    (e : h.update p c = some h') : c < p.nChar := by
  unfold Huff.update at e
  split at e
  · cases e
  · next h1 e1 =>
    split at e
    · cases e
    · next n e2 =>
      have hlt : c + p.T < h1.prnt.length := by
        by_contra hge
        simp [Huff.prntAt, List.getElem?_eq_none (Nat.le_of_not_lt hge)] at e2
      rw [Huff.halvedIfFull_prnt_length e1, hl] at hlt
      omega

/-- A decoded symbol is in the alphabet; `sym` and the tables are all that changes (R189, R191). -/
theorem State.takeSymbol_spec {s t : State} {c : Nat} (hl : s.huff.prnt.length = s.params.T + s.params.nChar)
    (e : s.takeSymbol c = some t) :
    c < s.params.nChar ∧ ∃ h, t = { s with huff := h, dec := { s.dec with sym := BitVec.ofNat 16 c } } := by
  unfold State.takeSymbol at e
  split at e
  · cases e
  · next h e1 =>
    cases e
    exact ⟨Huff.update_symbol_lt hl e1, h, rfl⟩

/-! ### The decoder's steps (42_lzhuf.md R180 to R196; 43_integrity.md R234) -/

/-- The next state is in DECODE at a position, its counter being positive. -/
theorem countersPositive_of_dstate {s t : State} (hp : s.ctl.phase = .decode) (d : DState)
    (hc : t.ctl = { s.ctl with dstate := d }) (hl : DecoderLive d t.dec t.params) : t.countersPositive := by
  rw [countersPositive_decode (by rw [hc]; exact hp), hc]
  exact hl

theorem execLit_countersPositive {c : Byte} {s : State} (hp : s.ctl.phase = .decode) (hd : s.ctl.dstate = .sym)
    (hl : s.huff.prnt.length = s.params.T + s.params.nChar) :
    Ensures State.countersPositive (execLit c s) := by
  unfold execLit
  split
  · exact ensures_fault _ _
  · next t e =>
    obtain ⟨_, h, rfl⟩ := State.takeSymbol_spec hl e
    exact .next (countersPositive_of_dstate hp .sym (by simp [← hd]) trivial)

/-- A match symbol leaves D_SYM for D_POS with `sym` in the alphabet above the literals (R191). -/
theorem execMatchSym_countersPositive {m : Byte} {s : State} (hp : s.ctl.phase = .decode)
    (hl : s.huff.prnt.length = s.params.T + s.params.nChar) :
    Ensures State.countersPositive (execMatchSym m s) := by
  unfold execMatchSym
  split
  · exact ensures_fault _ _
  · next t e =>
    obtain ⟨hc, h, rfl⟩ := State.takeSymbol_spec hl e
    have hm : (BitVec.ofNat 16 (256 + m.toNat)).toNat = 256 + m.toNat :=
      (BitVec.toNat_ofNat _ _).trans (Nat.mod_eq_of_lt (by omega))
    refine .next (countersPositive_of_dstate hp .pos rfl ?_)
    exact ⟨hm.symm ▸ Nat.le_add_right _ _, hm.symm ▸ hc⟩

/-- A symbol word is a literal, a match symbol, or rejected (R92). -/
theorem runWord_symbol_cases (w : BitVec 9) (s : State) :
    (∃ c, runWord (.lzhSym w) s = execLit c s) ∨ (∃ m, runWord (.lzhSym w) s = execMatchSym m s) ∨
      ∃ r, runWord (.lzhSym w) s = .refused r := by
  simp only [runWord, decode, decodeSym]
  split_ifs
  · exact .inl ⟨_, rfl⟩
  · exact .inr (.inl ⟨_, rfl⟩)
  · exact .inr (.inr ⟨_, rfl⟩)

/-- The walk moves the bit position alone (R191). -/
theorem State.walk_leaf {s u : State} {c : Nat} (h : s.walk = .leaf c u) : ∃ k, u = s.atBit k := by
  unfold State.walk at h
  split at h
  · cases h
  · obtain ⟨j, _, e⟩ := walkFrom_leaf h
    exact ⟨_, e⟩

theorem symTurn_countersPositive {s : State} (hp : s.ctl.phase = .decode) (hd : s.ctl.dstate = .sym)
    (hl : s.huff.prnt.length = s.params.T + s.params.nChar) (hs : s.countersPositive) :
    Ensures State.countersPositive (symTurn s) := by
  unfold symTurn
  split_ifs
  · exact .next hs
  · exact .next ((countersPositive_iff _).2 trivial)
  · exact .next (countersPositive_of_done rfl)
  · exact .next (countersPositive_of_error rfl)
  · split
    · exact ensures_fault _ _
    · exact .next (countersPositive_of_error rfl)
    · next c u hw =>
      obtain ⟨k, rfl⟩ := State.walk_leaf hw
      split
      · rcases runWord_symbol_cases (BitVec.ofNat 9 c) (s.atBit k) with ⟨c, e⟩ | ⟨m, e⟩ | ⟨r, e⟩ <;> rw [e]
        · exact execLit_countersPositive hp hd hl
        · exact execMatchSym_countersPositive hp hl
        · exact ensures_refused _ _
      · exact ensures_fault _ _

/-- The length of a match whose symbol is in the alphabet is between THRESHOLD + 1 and F, so it is not 0 (R194). -/
theorem State.matchLength_ne_zero {s : State} (hlo : 256 ≤ s.dec.sym.toNat) (hhi : s.dec.sym.toNat < s.params.nChar) :
    s.matchLength ≠ 0 := by
  have hb := params_bounds s.params
  have hn : s.params.nChar = 256 - s.params.val.threshold + s.params.F := rfl
  intro h
  have h0 := congrArg BitVec.toNat h
  simp only [State.matchLength, BitVec.toNat_ofNat] at h0
  rw [Nat.mod_eq_of_lt (by omega)] at h0
  simp at h0

/-- Each class of position codes reads the rest of its code (R193, R194). -/
theorem exec_decodePos (x : Byte) (s : State) : ∃ hi extra, exec (decodePos x) s = .next (s.position hi extra x) := by
  unfold decodePos
  split_ifs <;> exact ⟨_, _, rfl⟩

theorem State.position_countersPositive {s : State} (hp : s.ctl.phase = .decode) (hlo : 256 ≤ s.dec.sym.toNat)
    (hhi : s.dec.sym.toNat < s.params.nChar) (hi extra : Nat) (x : Byte) :
    (s.position hi extra x).countersPositive := by
  unfold State.position State.decodePosition
  cases e : State.getBits extra x.toNat s with
  | error u => exact countersPositive_of_error rfl
  | ok r =>
    obtain ⟨v, u⟩ := r
    obtain ⟨rfl, _⟩ := State.getBits_ok e
    simp only
    split
    · exact countersPositive_of_error rfl
    · exact countersPositive_of_dstate hp .copy rfl (State.matchLength_ne_zero (s := s) hlo hhi)

theorem posTurn_countersPositive {s : State} (hp : s.ctl.phase = .decode) (hlo : 256 ≤ s.dec.sym.toNat)
    (hhi : s.dec.sym.toNat < s.params.nChar) : Ensures State.countersPositive (posTurn s) := by
  unfold posTurn
  split
  · exact .next (countersPositive_of_error rfl)
  · next x u e =>
    obtain ⟨rfl, _⟩ := State.getBits_ok e
    obtain ⟨hi, extra, h⟩ := exec_decodePos (BitVec.ofNat 8 x) (s.atBit (s.dec.bitpos + 8))
    rw [runWord_of_decode rfl, h]
    exact .next (State.position_countersPositive (s := s.atBit (s.dec.bitpos + 8)) hp hlo hhi hi extra _)

theorem stepEnv_countersPositive {s : State} (hp : s.ctl.phase = .decode) : (stepEnv s).countersPositive := by
  unfold stepEnv
  split
  · exact countersPositive_of_error rfl
  · exact countersPositive_of_dstate hp .init rfl trivial

theorem stepInit_countersPositive {s : State} (hp : s.ctl.phase = .decode) : (stepInit s).countersPositive :=
  countersPositive_of_dstate hp .sym rfl trivial

/-- The last byte of a match, or of the message, leaves D_COPY (R195). -/
theorem stepCopy_countersPositive {s : State} (hp : s.ctl.phase = .decode) (hd : s.ctl.dstate = .copy)
    (hs : s.countersPositive) : (stepCopy s).countersPositive := by
  simp only [stepCopy]
  split_ifs with _ _ hm
  · exact hs
  · exact countersPositive_of_dstate hp .sym rfl trivial
  · exact countersPositive_of_dstate hp .sym rfl trivial
  · exact countersPositive_of_dstate hp .copy (by simp [← hd]) hm

theorem stepCheck_countersPositive {s : State} (hs : s.countersPositive) : (stepCheck s).countersPositive := by
  simp only [stepCheck]
  split_ifs
  · exact hs
  · exact countersPositive_of_error rfl
  · exact countersPositive_of_done rfl

/-! ### The engine's turn and the step -/

theorem engineTurn_countersPositive {s : State} (hl : s.huff.prnt.length = s.params.T + s.params.nChar)
    (hs : s.countersPositive) : Ensures State.countersPositive (engineTurn s) := by
  cases hp : s.ctl.phase with
  | idle => rw [engineTurn_idle hp]; exact .next hs
  | done => rw [engineTurn_done hp]; exact .next hs
  | error => rw [engineTurn_error hp]; exact .next hs
  | frame => rw [engineTurn_frame hp]; exact frameTurn_countersPositive hp hs
  | check => rw [engineTurn_check hp]; exact .next (stepCheck_countersPositive hs)
  | decode =>
    cases hd : s.ctl.dstate with
    | env => rw [engineTurn_env hp hd]; exact .next (stepEnv_countersPositive hp)
    | init => rw [engineTurn_init hp hd]; exact .next (stepInit_countersPositive hp)
    | sym => rw [engineTurn_sym hp hd]; exact symTurn_countersPositive hp hd hl hs
    | pos =>
      rw [engineTurn_pos hp hd]
      rw [countersPositive_decode hp, hd] at hs
      obtain ⟨hlo, hhi⟩ := hs
      exact posTurn_countersPositive hp hlo hhi
    | copy => rw [engineTurn_copy hp hd]; exact .next (stepCopy_countersPositive hp hd hs)

theorem State.wellShaped.prnt_length {s : State} (h : s.wellShaped) :
    s.huff.prnt.length = s.params.T + s.params.nChar := by
  obtain ⟨_, _, _, _, _, _, _, hprnt⟩ := h
  exact hprnt

/-- Settles O55: the moves of the other agents leave the counters alone or the run at rest, and each engine turn loads
the counter of the position it goes to or leaves it positive. -/
theorem stepKeepsCountersPositive : Obligations.StepKeepsCountersPositive := by
  intro s t hw hs
  have hs' (rest : List Move) : ({ s with agenda := rest } : State).countersPositive :=
    (countersPositive_congr rfl rfl rfl rfl).2 hs
  refine step_ensures (fun e he => ?_) (fun m rest _ hm => runMove_countersPositive hm (hs' rest)) t
  have hl : e.huff.prnt.length = e.params.T + e.params.nChar :=
    he.inherits (P := fun e => e.huff.prnt.length = e.params.T + e.params.nChar) fun _ => hw.prnt_length
  exact engineTurn_countersPositive hl (he.inherits hs')

end Sys2Proof.Machine
end

section
/-!
The shape of the state (10_state.md R27, R30; 00_scope.md R63; 20_memory.md R65 to R67), kept by the memories' writes, the
table operations and every move. Settles O54.
-/

namespace Sys2Proof.Machine

open Sys2Proof.Config (Params)

/-! ### What the shape reads -/

/-- The parts of the state that its shape speaks of. -/
def State.shape (s : State) :
    (Memory × Memory × Memory) × Params × Word × List Byte × HistIndex × HistIndex × Huff :=
  ((s.img, s.hist, s.subj), s.params, s.fr.imageLen, s.fr.lead, s.dec.wpos, s.dec.mSrc, s.huff)

/-- A step that writes none of these parts keeps the shape. -/
theorem State.wellShaped.of_shape_eq {s t : State} (hs : s.wellShaped) (h : t.shape = s.shape) : t.wellShaped := by
  simp only [State.shape, Prod.mk.injEq] at h
  obtain ⟨⟨himg, hhist, hsubj⟩, hparams, hlen, hlead, hwpos, hsrc, hhuff⟩ := h
  unfold State.wellShaped State.memWf State.inRange
  rw [himg, hhist, hsubj, hparams, hlen, hlead, hwpos, hsrc, hhuff]
  exact hs

/-- The tables have the sizes of R30. -/
def Huff.Sized (p : Params) (h : Huff) : Prop :=
  h.freq.length = p.T + 1 ∧ h.son.length = p.T ∧ h.prnt.length = p.T + p.nChar

/-! ### Writes within their ranges -/

section
variable {s : State} (hs : s.wellShaped)
include hs

/-- The tables replaced by tables of the same sizes. -/
theorem State.wellShaped.setHuff {h : Huff} (hh : h.Sized s.params) : ({ s with huff := h } : State).wellShaped := by
  obtain ⟨hm, hlen, hwpos, hsrc, hlead, _⟩ := hs
  exact ⟨hm, hlen, hwpos, hsrc, hlead, hh⟩

theorem State.wellShaped.sized : s.huff.Sized s.params := by
  obtain ⟨_, _, _, _, _, hh⟩ := hs
  exact hh

theorem State.wellShaped.imageLen_le : s.fr.imageLen.toNat ≤ s.params.cap := by
  obtain ⟨_, hlen, _⟩ := hs
  exact hlen

/-- An image length that the capacity allows. -/
theorem State.wellShaped.setImageLen {v : Word} (hv : v.toNat ≤ s.params.cap) :
    ({ s with fr := { s.fr with imageLen := v } } : State).wellShaped := by
  obtain ⟨hm, _, hr⟩ := hs
  exact ⟨hm, hv, hr⟩

/-- A lead byte replaces another one (R147). -/
theorem State.wellShaped.setLead (i : Nat) (b : Byte) :
    ({ s with fr := { s.fr with lead := s.fr.lead.set i b } } : State).wellShaped := by
  obtain ⟨hm, hlen, hwpos, hsrc, hlead, hh⟩ := hs
  exact ⟨hm, hlen, hwpos, hsrc, List.length_set.trans hlead, hh⟩

/-- A match source computed in the window (R200). -/
theorem State.wellShaped.setSrc (n : Nat) :
    ({ s with dec := { s.dec with mSrc := histIndex s.params n } } : State).wellShaped := by
  obtain ⟨hm, hlen, hwpos, _, hr⟩ := hs
  exact ⟨hm, hlen, hwpos, histIndex_lt s.params n, hr⟩

theorem State.wellShaped.writeImg {a : Nat} (b : Byte) (ha : a < s.params.cap) : (s.writeImg a b).wellShaped := by
  obtain ⟨hm, hr⟩ := hs
  exact ⟨State.memWf_writeImg b ha hm, hr⟩

theorem State.wellShaped.writeSubj {i : Nat} (b : Byte) (hi : i < 256) : (s.writeSubj i b).wellShaped := by
  obtain ⟨hm, hr⟩ := hs
  exact ⟨State.memWf_writeSubj b hi hm, hr⟩

/-- An output byte enters the window at wpos, which moves on within it (R192, R200). -/
theorem State.wellShaped.output (b : Byte) : (s.output b).wellShaped := by
  obtain ⟨hm, hlen, hwpos, hr⟩ := hs
  exact ⟨State.memWf_writeHist b hwpos hm, hlen, histIndex_lt s.params _, hr⟩

end

/-! ### The table operations keep the sizes (42_lzhuf.md R187, R188) -/

theorem Huff.SameSize.sized {p : Params} {h h' : Huff} (e : h.SameSize h') (hs : h.Sized p) : h'.Sized p := by
  obtain ⟨hf, hn, hp⟩ := hs
  obtain ⟨ef, en, ep⟩ := e
  exact ⟨ef.trans hf, en.trans hn, ep.trans hp⟩

theorem Huff.swap_sameSize {t n l k : Nat} {h h' : Huff} (e : h.swap t n l k = some h') : h.SameSize h' := by
  simp only [Huff.swap, Option.bind_eq_bind, Option.bind_eq_some_iff] at e
  obtain ⟨_, _, h1, e1, h2, e2, _, _, h3, e3, _, _, h4, e4, h5, e5, e6⟩ := e
  exact (Huff.setFreq_sameSize e1).trans <| (Huff.setFreq_sameSize e2).trans <|
    (Huff.setParent_sameSize e3).trans <| (Huff.setSon_sameSize e4).trans <|
      (Huff.setParent_sameSize e5).trans (Huff.setSon_sameSize e6)

theorem Huff.bump_sameSize {t n n' : Nat} {h h' : Huff} (e : h.bump t n = some (h', n')) : h.SameSize h' := by
  simp only [Huff.bump, Option.bind_eq_bind, Option.bind_eq_some_iff] at e
  obtain ⟨_, _, h1, e1, _, _, _, _, e2⟩ := e
  split at e2
  · simp only [Option.bind_eq_some_iff, Option.some.injEq, Prod.mk.injEq] at e2
    obtain ⟨_, _, h2, e3, rfl, _⟩ := e2
    exact (Huff.setFreq_sameSize e1).trans (Huff.swap_sameSize e3)
  · cases e2
    exact Huff.setFreq_sameSize e1

theorem Huff.climb_sameSize {t : Nat} : ∀ {fuel n : Nat} {h h' : Huff}, Huff.climb t fuel h n = some h' → h.SameSize h'
  | 0, _, _, _, e => by simp [Huff.climb] at e
  | fuel + 1, n, h, h', e => by
    unfold Huff.climb at e
    split at e
    · cases e
    · next h1 n1 e1 =>
      split at e
      · cases e
      · cases e
        exact Huff.bump_sameSize e1
      · exact (Huff.bump_sameSize e1).trans (Huff.climb_sameSize e)

/-- Each internal node built is one more node. -/
theorem rebuildFrom_length : ∀ {n i : Nat} {nodes nodes' : List HuffNode}, rebuildFrom n i nodes = some nodes' →
    nodes'.length = nodes.length + n
  | 0, _, _, _, e => by
    cases e
    rfl
  | n + 1, i, nodes, nodes', e => by
    unfold rebuildFrom at e
    split at e
    · rw [rebuildFrom_length e]
      simp only [List.length_append, List.length_cons, List.length_take, List.length_drop]
      omega
    · cases e

/-- Halving rebuilds the T nodes from the N_CHAR leaves and keeps the sentinel's entry (R187). -/
theorem reconst_sized {p : Params} {h h' : Huff} (hs : h.Sized p) (e : reconst p h = some h') : h'.Sized p := by
  obtain ⟨hf, _, hp⟩ := hs
  have ha := params_alphabet p
  simp only [reconst] at e
  split at e
  · next hleaves =>
    split at e
    · cases e
    · next nodes e1 =>
      have hn := rebuildFrom_length e1
      refine (reparentFrom_sameSize e).sized ⟨?_, ?_, hp⟩
      · simp only [List.length_append, List.length_map, List.length_drop]
        omega
      · rw [List.length_map]
        omega
  · cases e

theorem Huff.halvedIfFull_sized {p : Params} {h h' : Huff} (hs : h.Sized p) (e : h.halvedIfFull p = some h') :
    h'.Sized p := by
  unfold Huff.halvedIfFull at e
  split at e
  · cases e
  · split at e
    · exact reconst_sized hs e
    · cases e
      exact hs

theorem Huff.update_sized {p : Params} {h h' : Huff} {c : Nat} (hs : h.Sized p) (e : h.update p c = some h') :
    h'.Sized p := by
  unfold Huff.update at e
  split at e
  · cases e
  · next e1 =>
    split at e
    · cases e
    · exact (Huff.climb_sameSize e).sized (Huff.halvedIfFull_sized hs e1)

/-- The initial tables have the sizes of R30, being a tree. -/
theorem startHuff_sized (p : Params) : (startHuff p).Sized p :=
  have ht := startHuff_treeSound p
  ⟨ht.freq_length, ht.son_length, ht.prnt_length⟩

/-! ### The moves of the other agents -/

theorem State.resetWith_wellShaped (p : Params) : (State.resetWith p).wellShaped := by
  have hN : 0 < p.N := by have := params_bounds p; omega
  refine ⟨State.reset_memWf p, Nat.zero_le _, hN, hN, rfl, ?_, ?_, ?_⟩ <;> exact List.length_replicate

/-- A start command clears the lead bytes and m_src, and keeps image_len or clears it (R115). -/
theorem State.wellShaped.startClear {s : State} (hs : s.wellShaped) (keep : Bool) : (s.startClear keep).wellShaped := by
  obtain ⟨hm, hlen, hwpos, _, _, hh⟩ := hs
  have hlen' : (s.startClear keep).fr.imageLen.toNat ≤ s.params.cap := by
    cases keep
    · exact Nat.zero_le _
    · exact hlen
  exact ⟨hm, hlen', hwpos, Nat.zero_lt_of_lt hwpos, rfl, hh⟩

theorem State.wellShaped.storeImgData {s : State} (hs : s.wellShaped) (b : Byte) : (s.storeImgData b).wellShaped := by
  unfold State.storeImgData
  split
  · next ha => exact hs.writeImg b ha
  · exact hs

theorem HostEffect.wellShaped {s t : State} (h : HostEffect s t) (hs : s.wellShaped) : t.wellShaped := by
  cases h with
  | regs h v => exact hs.of_shape_eq rfl
  | imageLen v _ hv => exact hs.setImageLen hv
  | imgData b _ => exact (hs.storeImgData b).of_shape_eq rfl
  | start keep mode phase hb _ =>
    rw [State.start_idle hb]
    exact (hs.startClear keep).of_shape_eq rfl
  | abort _ => exact hs.of_shape_eq rfl
  | clear _ => exact hs.of_shape_eq rfl

/-- The moves of the agents around the engine. -/
theorem runMove_wellShaped {m : Move} {s : State} (hm : m ≠ .engine) (hs : s.wellShaped) :
    Ensures State.wellShaped (runMove m s) := by
  cases m with
  | host op => exact fun t ht => (runWord_hostEffect op s t ht).wellShaped hs
  | push b => exact .next (hs.of_shape_eq rfl)
  | endInput => exact .next (hs.of_shape_eq rfl)
  | clearEnd => exact .next (hs.of_shape_eq rfl)
  | take => exact .next (hs.of_shape_eq rfl)
  | engine => exact absurd rfl hm
  | reset => exact .next ((State.resetWith_wellShaped s.params).of_shape_eq rfl)

/-! ### The framer's bytes (41_framer.md R141 to R151)

Three instructions write what the shape reads: a subject byte, a lead byte and a data byte. -/

section
variable {s : State} (b : Byte) (hs : s.wellShaped)
include hs

/-- Subject bytes go to indices of 8 bits (R143). -/
theorem execSubjByte_wellShaped : Ensures State.wellShaped (execSubjByte b s) := by
  have hw : (s.writeSubj s.fr.subjLen.toNat b).wellShaped := hs.writeSubj b s.fr.subjLen.isLt
  simp only [execSubjByte]
  split
  · exact .next (hw.of_shape_eq rfl)
  · exact .next (hw.of_shape_eq rfl)

theorem execLeadByte_wellShaped : Ensures State.wellShaped (execLeadByte b s) := by
  have hw := hs.setLead s.fr.leadCnt.toNat b
  simp only [execLeadByte]
  split
  · exact .next (hw.of_shape_eq rfl)
  · exact .next (hw.of_shape_eq rfl)

/-- A data byte is stored at image_len where the image is not full, so that image_len stays within IMAGE_CAP (R150). -/
theorem execBlkData_wellShaped : Ensures State.wellShaped (execBlkData b s) := by
  simp only [execBlkData]
  split
  · exact .next (hs.of_shape_eq rfl)
  · next hfull =>
    have hlt : s.fr.imageLen.toNat < s.params.cap := Nat.lt_of_le_of_ne hs.imageLen_le hfull
    have hlen : (s.fr.imageLen + 1).toNat ≤ s.params.cap := by
      have hb := params_bounds s.params
      have h1 : (1 : Word).toNat = 1 := rfl
      rw [BitVec.toNat_add, h1, Nat.mod_eq_of_lt (by omega)]
      exact hlt
    have hw := (hs.writeImg b hlt).setImageLen hlen
    split
    · exact .next (hw.of_shape_eq rfl)
    · exact .next (hw.of_shape_eq rfl)

omit hs in
/-- In the other positions no byte writes what the shape reads. -/
theorem frame_byte_shape {f : FState} (hf : f ≠ .subj ∧ f ≠ .lead ∧ f ≠ .bdata) :
    Ensures (fun t => t.shape = s.shape) (exec (decodeByte f b) s) := by
  obtain ⟨hsubj, hlead, hbdata⟩ := hf
  cases f with
  | subj => exact absurd rfl hsubj
  | lead => exact absurd rfl hlead
  | bdata => exact absurd rfl hbdata
  | soh | hlen | rstx | rlen | blen =>
    simp only [decodeByte]
    split <;> exact .next rfl
  | mark =>
    simp only [decodeByte]
    split
    · exact .next rfl
    · split <;> exact .next rfl
  | offs =>
    simp only [decodeByte]
    split
    · simp only [exec, execOffsDigit]
      split
      · exact .next rfl
      · split <;> exact .next rfl
    · split
      · simp only [exec, execOffsNul]
        split
        · exact .next rfl
        · split <;> exact .next rfl
      · exact .next rfl
  | csum =>
    simp only [decodeByte, exec, execCsum]
    split
    · exact .next rfl
    · split <;> exact .next rfl

theorem frame_byte_wellShaped (f : FState) : Ensures State.wellShaped (exec (decodeByte f b) s) := by
  have other (hf : f ≠ .subj ∧ f ≠ .lead ∧ f ≠ .bdata) : Ensures State.wellShaped (exec (decodeByte f b) s) :=
    fun t ht => hs.of_shape_eq (frame_byte_shape b hf t ht)
  cases f with
  | subj =>
    simp only [decodeByte]
    split
    · simp only [exec, execSubjNul]
      split <;> exact .next (hs.of_shape_eq rfl)
    · exact execSubjByte_wellShaped b hs
  | lead => exact execLeadByte_wellShaped b hs
  | bdata => exact execBlkData_wellShaped b hs
  | soh | hlen | offs | rstx | rlen | mark | blen | csum => exact other (by decide)

theorem frameTurn_wellShaped : Ensures State.wellShaped (frameTurn s) := by
  unfold frameTurn
  split
  · rw [runWord_frame]
    exact frame_byte_wellShaped _ hs _
  · split
    · exact .next (hs.of_shape_eq rfl)
    · exact .next hs

end

/-! ### The decoder's steps (42_lzhuf.md R180 to R196; 43_integrity.md R234) -/

/-- A walk that runs out moves the bit position alone (R183). -/
theorem State.walk_truncated {s u : State} (h : s.walk = .truncated u) : ∃ k, u = s.atBit k := by
  unfold State.walk at h
  split at h
  · cases h
  · exact ⟨_, walkFrom_truncated h⟩

/-- GetBits that runs out moves the bit position alone, wherever it started. -/
theorem State.getBits_error_atBit : ∀ {n v : Nat} {s u : State}, State.getBits n v s = .error u → ∃ k, u = s.atBit k
  | 0, _, _, _, h => by simp [State.getBits] at h
  | n + 1, v, s, u, h => by
    rcases State.getBit_spec s with ⟨_, e⟩ | ⟨_, e⟩
    · simp only [State.getBits, e] at h
      obtain ⟨k, hk⟩ := State.getBits_error_atBit h
      exact ⟨k, hk.trans (State.skipBit_atBit s k)⟩
    · simp only [State.getBits, e, Except.error.injEq] at h
      exact ⟨s.dec.bitpos, h.symm⟩

section
variable {s : State} (hs : s.wellShaped)
include hs

theorem State.wellShaped.atBit (k : Nat) : (s.atBit k).wellShaped := hs.of_shape_eq rfl

theorem State.wellShaped.takeSymbol {t : State} {c : Nat} (e : s.takeSymbol c = some t) : t.wellShaped := by
  unfold State.takeSymbol at e
  split at e
  · cases e
  · next h e1 =>
    cases e
    exact (hs.setHuff (Huff.update_sized hs.sized e1)).of_shape_eq rfl

theorem execLit_wellShaped (c : Byte) : Ensures State.wellShaped (execLit c s) := by
  unfold execLit
  split
  · exact ensures_fault _ _
  · next e => exact .next ((hs.takeSymbol e).output c)

theorem execMatchSym_wellShaped (m : Byte) : Ensures State.wellShaped (execMatchSym m s) := by
  unfold execMatchSym
  split
  · exact ensures_fault _ _
  · next e => exact .next ((hs.takeSymbol e).of_shape_eq rfl)

theorem symTurn_wellShaped : Ensures State.wellShaped (symTurn s) := by
  unfold symTurn
  split_ifs
  · exact .next hs
  · exact .next (hs.of_shape_eq rfl)
  · exact .next (hs.of_shape_eq rfl)
  · exact .next (hs.of_shape_eq rfl)
  · split
    · exact ensures_fault _ _
    · next hw =>
      obtain ⟨k, rfl⟩ := State.walk_truncated hw
      exact .next (hs.of_shape_eq rfl)
    · next c u hw =>
      obtain ⟨k, rfl⟩ := State.walk_leaf hw
      split
      · rcases runWord_symbol_cases (BitVec.ofNat 9 c) (s.atBit k) with ⟨c, e⟩ | ⟨m, e⟩ | ⟨r, e⟩ <;> rw [e]
        · exact execLit_wellShaped (hs.atBit k) c
        · exact execMatchSym_wellShaped (hs.atBit k) m
        · exact ensures_refused _ _
      · exact ensures_fault _ _

/-- The source of a match is computed in the window (R194, R200). -/
theorem State.position_wellShaped (hi extra : Nat) (x : Byte) : (s.position hi extra x).wellShaped := by
  unfold State.position State.decodePosition
  cases e : State.getBits extra x.toNat s with
  | error u =>
    obtain ⟨k, rfl⟩ := State.getBits_error_atBit e
    exact hs.of_shape_eq rfl
  | ok r =>
    obtain ⟨v, u⟩ := r
    obtain ⟨rfl, _⟩ := State.getBits_ok e
    simp only
    split
    · exact hs.of_shape_eq rfl
    · exact (hs.setSrc _).of_shape_eq rfl

theorem posTurn_wellShaped : Ensures State.wellShaped (posTurn s) := by
  unfold posTurn
  split
  · next u e =>
    obtain ⟨k, rfl⟩ := State.getBits_error_atBit e
    exact .next (hs.of_shape_eq rfl)
  · next x u e =>
    obtain ⟨rfl, _⟩ := State.getBits_ok e
    obtain ⟨hi, extra, h⟩ := exec_decodePos (BitVec.ofNat 8 x) (s.atBit (s.dec.bitpos + 8))
    rw [runWord_of_decode rfl, h]
    exact .next (State.position_wellShaped (hs.atBit _) hi extra _)

theorem stepEnv_wellShaped : (stepEnv s).wellShaped := by
  unfold stepEnv
  split <;> exact hs.of_shape_eq rfl

/-- INIT empties the listing of the window, builds the tables and places wpos in the window (R185, R186). -/
theorem stepInit_wellShaped : (stepInit s).wellShaped := by
  obtain ⟨hm, hlen, _, hsrc, hlead, _⟩ := hs
  simp only [State.memWf, Bool.and_eq_true] at hm
  obtain ⟨⟨himg, _⟩, hsubj⟩ := hm
  have hm' : (stepInit s).memWf = true := by
    simp only [State.memWf, Bool.and_eq_true]
    exact ⟨⟨himg, Memory.wf_nil _ _⟩, hsubj⟩
  exact ⟨hm', hlen, histIndex_lt s.params _, hsrc, hlead, startHuff_sized s.params⟩

theorem stepCopy_wellShaped : (stepCopy s).wellShaped := by
  have hw := (hs.output (s.readHist s.dec.mSrc)).setSrc (s.dec.mSrc.toNat + 1)
  simp only [stepCopy]
  split_ifs
  · exact hs
  · exact hs.of_shape_eq rfl
  · exact hw.of_shape_eq rfl
  · exact hw.of_shape_eq rfl

theorem stepCheck_wellShaped : (stepCheck s).wellShaped := by
  simp only [stepCheck]
  split_ifs <;> exact hs.of_shape_eq rfl

/-! ### The engine's turn and the step -/

theorem engineTurn_wellShaped : Ensures State.wellShaped (engineTurn s) := by
  cases hp : s.ctl.phase with
  | idle => rw [engineTurn_idle hp]; exact .next hs
  | done => rw [engineTurn_done hp]; exact .next hs
  | error => rw [engineTurn_error hp]; exact .next hs
  | frame => rw [engineTurn_frame hp]; exact frameTurn_wellShaped hs
  | check => rw [engineTurn_check hp]; exact .next (stepCheck_wellShaped hs)
  | decode =>
    cases hd : s.ctl.dstate with
    | env => rw [engineTurn_env hp hd]; exact .next (stepEnv_wellShaped hs)
    | init => rw [engineTurn_init hp hd]; exact .next (stepInit_wellShaped hs)
    | sym => rw [engineTurn_sym hp hd]; exact symTurn_wellShaped hs
    | pos => rw [engineTurn_pos hp hd]; exact posTurn_wellShaped hs
    | copy => rw [engineTurn_copy hp hd]; exact .next (stepCopy_wellShaped hs)

end

/-- Settles O54: every move writes what the shape reads within its range, or leaves it alone. -/
theorem stepKeepsWellShaped : Obligations.StepKeepsWellShaped := by
  intro s t hs
  have hs' (rest : List Move) : ({ s with agenda := rest } : State).wellShaped := hs.of_shape_eq rfl
  exact step_ensures (fun e he => engineTurn_wellShaped (he.inherits hs'))
    (fun m rest _ hm => runMove_wellShaped hm (hs' rest)) t

end Sys2Proof.Machine
end

section
/-!
The ports' moves, and what the host reads: the fields of a register at their bits (10_state.md R40 to R61). Settles O3, O11,
O12, O13, O14 and O15.
-/

namespace Sys2Proof.Machine

/-! ### The ports (10_state.md R33, R34) -/

/-- Settles O3: each move, where it is enabled, is the step. -/
theorem portMovesFollowTheirRules : Obligations.PortMovesFollowTheirRules := by
  intro s rest
  refine ⟨fun b ha hv he => ?push, fun ha => ?endInput, fun ha => ?clearEnd, fun ha ho => ?take⟩
  case push =>
    rw [step_eq_runMove ha (by simp [Move.enabled, hv, he])]
    simp [runMove, State.push, he]
  case endInput => exact step_eq_runMove ha rfl
  case clearEnd => exact step_eq_runMove ha rfl
  case take => exact step_eq_runMove ha ho

/-! ### A register's fields

Bits `lo` to `lo + w - 1` of `field v lo` are those of `v`, and every other bit is 0. -/

theorem getLsbD_field {w : Nat} (v : BitVec w) (lo i : Nat) :
    (field v lo).getLsbD i = (decide (i < 32) && decide (lo ≤ i) && v.getLsbD (i - lo)) := by
  simp only [field, BitVec.getLsbD_shiftLeft, BitVec.getLsbD_setWidth]
  by_cases hi : i < 32
  · have hsub : i - lo < 32 := by omega
    by_cases hlo : lo ≤ i
    · simp [hi, hsub, hlo]
    · simp [hlo, Nat.lt_of_not_le hlo]
  · simp [hi]

/-- A bit beside the field. -/
theorem getLsbD_field_other {w lo i : Nat} (v : BitVec w) (h : i < lo ∨ lo + w ≤ i) : (field v lo).getLsbD i = false := by
  rw [getLsbD_field]
  rcases h with h | h
  · simp [Nat.not_le_of_lt h]
  · simp [BitVec.getLsbD_of_ge v (i - lo) (by omega)]

@[simp] theorem getElem_field_other {w lo i : Nat} (v : BitVec w) (hi : i < 32) (h : i < lo ∨ lo + w ≤ i) :
    (field v lo)[i] = false := by
  rw [← BitVec.getLsbD_eq_getElem]
  exact getLsbD_field_other v h

/-- A flag's bit. -/
@[simp] theorem getElem_field_bit {lo : Nat} (b : Bool) (h : lo < 32) : (field (bit b) lo)[lo] = b := by
  rw [← BitVec.getLsbD_eq_getElem, getLsbD_field]
  simp [bit, h]

/-- The bits of the field. -/
@[simp] theorem extract_field {w lo : Nat} (v : BitVec w) (h : lo + w ≤ 32) : (field v lo).extractLsb' lo w = v := by
  apply BitVec.eq_of_getLsbD_eq
  intro i hi
  have hlt : lo + i < 32 := by omega
  rw [BitVec.getLsbD_extractLsb', getLsbD_field]
  simp [hi, hlt]

/-- Bits beside the field. -/
@[simp] theorem extract_field_other {w lo start len : Nat} (v : BitVec w) (h : start + len ≤ lo ∨ lo + w ≤ start) :
    (field v lo).extractLsb' start len = 0 := by
  apply BitVec.eq_of_getLsbD_eq
  intro i hi
  rw [BitVec.getLsbD_extractLsb', getLsbD_field_other v (by omega)]
  simp

/-- A field at bit 0 alone is the value widened. -/
theorem field_zero {w : Nat} (v : BitVec w) : field v 0 = v.setWidth 32 := BitVec.shiftLeft_zero _

/-- A number is shown mod 2^32. -/
theorem word_mod (n : Nat) : word (n % 2 ^ 32) = word n := by
  apply BitVec.eq_of_toNat_eq
  simp [word]

/-! ### Registers of one value -/

/-- Settles O11: each arm answers its register's value; ERR_CODE and HIST_WPOS are fields at bit 0, BITPOS is shown mod
2^32. -/
theorem wholeRegisterReads : Obligations.WholeRegisterReads := by
  intro s
  have herr : s.regErrCode = s.err.code.setWidth 32 := field_zero _
  have hbit : s.regBitpos = BitVec.ofNat 32 (s.dec.bitpos % 2 ^ 32) := (word_mod _).symm
  have hwpos : s.regHistWpos = s.dec.wpos.setWidth 32 := field_zero _
  refine ⟨rfl, rfl, rfl, ?_, rfl, rfl, rfl, rfl, rfl, rfl, rfl, rfl, rfl, rfl, ?_, ?_⟩
  · rw [← herr]; rfl
  · rw [← hbit]; rfl
  · rw [← hwpos]; rfl

/-! ### Registers packed from fields -/

/-- Settles O12: each register is the disjunction of its fields, read at their bits. -/
theorem packedRegisterReads : Obligations.PackedRegisterReads := by
  intro s
  refine ⟨⟨s.regCtrl, rfl, ?_⟩, ⟨s.regHeader, rfl, ?_⟩, ⟨s.regLeadLo, rfl, ?_⟩, ⟨s.regLeadHi, rfl, ?_⟩,
    ⟨s.regChecksum, rfl, ?_⟩, ⟨s.regEnvCrc, rfl, ?_⟩, ⟨s.regIrqStatus, rfl, ?_⟩, ⟨s.regEngineState, rfl, ?_⟩,
    rfl, rfl⟩
  · simp [BitVec.extractLsb'_or, State.regCtrl]
  · simp [BitVec.extractLsb'_or, State.regHeader]
  · simp [BitVec.extractLsb'_or, State.regLeadLo, State.leadAt]
  · simp [BitVec.extractLsb'_or, State.regLeadHi, State.leadAt]
  · simp [BitVec.extractLsb'_or, State.regChecksum]
  · simp [BitVec.extractLsb'_or, State.regEnvCrc]
  · simp [BitVec.extractLsb'_or, State.regIrqStatus]
  · simp [BitVec.extractLsb'_or, State.regEngineState]

/-! ### STATUS (10_state.md R43) -/

theorem State.inWait_iff (s : State) :
    s.inWait = true ↔ s.ctl.phase = .frame ∧ s.inp.valid = false ∧ s.inp.ended = false := by
  simp [State.inWait, and_assoc]

theorem State.outWait_iff (s : State) :
    s.outWait = true ↔
      s.ctl.phase = .decode ∧ (s.ctl.dstate = .sym ∨ s.ctl.dstate = .copy) ∧ s.out.valid = true := by
  simp [State.outWait, and_assoc]

/-- Settles O13: each bit of the packed register is its flag, and each flag is what R43 says. -/
theorem statusReadShowsEveryField : Obligations.StatusReadShowsEveryField := by
  intro s
  refine ⟨s.status, rfl, ?phase, ?busy, ?done, ?error, ?resumed, ?valid, ?badcmd, ?inWait, ?outWait, ?mode, ?rest,
    by decide, by decide, ?reset⟩
  case busy =>
    have hbit : s.status.getLsbD 3 = s.busy := by simp [State.status]
    rw [hbit, State.busy_iff]
  case inWait =>
    have hbit : s.status.getLsbD 9 = s.inWait := by simp [State.status]
    rw [hbit, State.inWait_iff]
  case outWait =>
    have hbit : s.status.getLsbD 10 = s.outWait := by simp [State.status]
    rw [hbit, State.outWait_iff]
  case reset =>
    have hzero : State.reset.status = 0 := by decide
    rw [← hzero]
    rfl
  all_goals simp [BitVec.extractLsb'_or, State.status]

/-! ### The parameter registers (10_state.md R60) -/

theorem toNat_ofNat_of_fits {w n : Nat} (h : n < 2 ^ w) : (BitVec.ofNat w n).toNat = n :=
  (BitVec.toNat_ofNat n w).trans (Nat.mod_eq_of_lt h)

/-- LOG2_N fits its field, and is the logarithm exactly (R10). -/
theorem param0_log (s : State) :
    2 ^ (BitVec.ofNat 8 (Nat.log2 s.params.val.windowSize)).toNat = s.params.val.windowSize := by
  obtain ⟨hN, _, hN4096, _⟩ := params_bounds s.params
  have hlog : Nat.log2 s.params.N < 256 := by
    by_contra hge
    have hpow : 2 ^ 256 ≤ 2 ^ Nat.log2 s.params.N := Nat.pow_le_pow_right (by decide) (Nat.le_of_not_lt hge)
    omega
  have hmod : (BitVec.ofNat 8 (Nat.log2 s.params.N)).toNat = Nat.log2 s.params.N := toNat_ofNat_of_fits hlog
  exact (congrArg (2 ^ ·) hmod).trans hN.symm

/-- Settles O14: R10's bounds let every parameter fit its field. -/
theorem parameterReadsReportParameters : Obligations.ParameterReadsReportParameters := by
  intro s p
  obtain ⟨_, _, _, _, hF, _, hT, _, hcap⟩ := params_bounds s.params
  have hlook : p.lookahead < 2 ^ 8 := Nat.lt_succ_of_le hF
  have hthr : p.threshold < 2 ^ 8 := Nat.lt_of_lt_of_le hT (Nat.le_of_lt hlook)
  have hlen : p.imageCap < 2 ^ 32 := Nat.lt_succ_of_le hcap
  have elog : s.regParam0.extractLsb' 0 8 = BitVec.ofNat 8 (Nat.log2 p.windowSize) := by
    simp [State.regParam0, BitVec.extractLsb'_or, p]
  have elook : s.regParam0.extractLsb' 8 8 = BitVec.ofNat 8 p.lookahead := by
    simp [State.regParam0, BitVec.extractLsb'_or, p]
  have ethr : s.regParam0.extractLsb' 16 8 = BitVec.ofNat 8 p.threshold := by
    simp [State.regParam0, BitVec.extractLsb'_or, p]
  refine ⟨⟨s.regParam0, rfl, ?_, ?_, ?_, ?_⟩, ⟨s.regParam1, rfl, toNat_ofNat_of_fits hlen⟩,
    ⟨s.regParam2, rfl, ?_⟩, ⟨s.regParam3, rfl, ?_⟩, ?_⟩
  · rw [elog]
    exact param0_log s
  · rw [elook]
    exact toNat_ofNat_of_fits hlook
  · rw [ethr]
    exact toNat_ofNat_of_fits hthr
  · refine ⟨?leadInSum, ?storeOrder, ?scope, ?refin, ?refout, ?unused, fun hp => ?defaults⟩
    case defaults =>
      rw [State.regParam0, show s.params.val = Config.RawParams.default from hp]
      decide
    all_goals simp [State.regParam0, BitVec.extractLsb'_or, p]
  · simp [State.regParam2, BitVec.extractLsb'_or, p]
  · simp [State.regParam3, BitVec.extractLsb'_or, p]
  · intro hp
    have hval : s.params.val = Config.RawParams.default := hp
    have h1 : s.regParam1 = 0x00100000 := by rw [State.regParam1, Config.Params.cap, hval]; decide
    have h2 : s.regParam2 = 0x00001021 := by rw [State.regParam2, hval]; decide
    have h3 : s.regParam3 = 0x00200000 := by rw [State.regParam3, hval]; decide
    rw [← h1, ← h2, ← h3]
    exact ⟨rfl, rfl, rfl⟩

/-! ### SUBJECT (10_state.md R61) -/

/-- Settles O15: byte j of the word is the subject byte 4k + j as the host sees it. -/
theorem subjectReadMasksUnstoredBytes : Obligations.SubjectReadMasksUnstoredBytes := by
  intro s k
  have hbyte : ∀ j, j < 4 → (s.regSubject k).extractLsb' (8 * j) 8 = s.subjectByte (4 * k.toNat + j) := by
    intro j hj
    match j, hj with
    | 0, _ => simp [BitVec.extractLsb'_or, State.regSubject]
    | 1, _ => simp [BitVec.extractLsb'_or, State.regSubject]
    | 2, _ => simp [BitVec.extractLsb'_or, State.regSubject]
    | 3, _ => simp [BitVec.extractLsb'_or, State.regSubject]
  exact ⟨s.regSubject k, rfl, hbyte⟩

end Sys2Proof.Machine
end

section
/-!
The encoded words (30_encoding.md R85 to R94): what the decoder reads is well-formed and encodes to the word up to the
bits its format ignores. Settles O10.
-/

namespace Sys2Proof

/-! ### A word as its upper and lower parts -/

/-- A word is its upper part followed by its lower part. -/
theorem extract_append_extract (m n : Nat) (x : BitVec (m + n)) : x.extractLsb' n m ++ x.extractLsb' 0 n = x := by
  rw [BitVec.extractLsb'_append_extractLsb'_eq_extractLsb' (by omega), BitVec.extractLsb'_eq_self]

/-- The upper part of a word is a quotient of its number. -/
theorem ofNat_append_extract (m n q : Nat) (x : BitVec (m + n)) (h : x.toNat / 2 ^ n = q) :
    BitVec.ofNat m q ++ x.extractLsb' 0 n = x := by
  have hq : BitVec.ofNat m q = x.extractLsb' n m := by
    rw [← h, ← Nat.shiftRight_eq_div_pow, BitVec.extractLsb']
  rw [hq, extract_append_extract]

/-- Masking with 0xFFC clears the ignored bits of an offset (R86). -/
theorem offset_mask (a : BitVec 12) : a &&& 0xFFC = wordOffset (a.extractLsb' 2 10) := by
  have hmask : (0xFFC : BitVec 12) = BitVec.allOnes 10 ++ (0 : BitVec 2) := by decide
  calc a &&& 0xFFC = (a.extractLsb' 2 10 ++ a.extractLsb' 0 2) &&& (BitVec.allOnes 10 ++ (0 : BitVec 2)) := by
        rw [extract_append_extract 10 2 a, hmask]
    _ = wordOffset (a.extractLsb' 2 10) := by
        rw [BitVec.and_append, BitVec.and_allOnes, wordOffset]
        exact congrArg _ BitVec.and_zero

/-- Masking with 0xF clears the ignored bits of a command (R85). -/
theorem command_mask (w : Word) : w &&& 0xF = (0 : BitVec 28) ++ w.extractLsb' 0 4 := by
  have hmask : (0xF : Word) = (0 : BitVec 28) ++ BitVec.allOnes 4 := by decide
  calc w &&& 0xF = (w.extractLsb' 4 28 ++ w.extractLsb' 0 4) &&& ((0 : BitVec 28) ++ BitVec.allOnes 4) := by
        rw [extract_append_extract 28 4 w, hmask]
    _ = (0 : BitVec 28) ++ w.extractLsb' 0 4 := by
        rw [BitVec.and_append, BitVec.and_allOnes]
        exact congrArg (· ++ w.extractLsb' 0 4) BitVec.and_zero

/-! ### The formats one by one -/

/-- The sixteen commands (R85). -/
theorem decodeCmd_reencodes (w : Word) : (decodeCmd w).wf = true ∧ encode (decodeCmd w) = .cmd (w &&& 0xF) := by
  rw [command_mask]
  unfold decodeCmd
  generalize w.extractLsb' 0 4 = code
  revert code
  decide

/-- Register reads: a register of its own below word 30, above it the six ranges (R86; 10_state.md R40). -/
theorem decodeRd_reencodes (a : BitVec 12) :
    (decodeRd a).wf = true ∧ encode (decodeRd a) = .mmioRd (a &&& 0xFFC) := by
  rw [offset_mask]
  simp only [decodeRd]
  generalize a.extractLsb' 2 10 = k
  split
  · next h =>
    have hk : wordOffset k = wordOffset (BitVec.ofNat 10 k.toNat) := by rw [BitVec.ofNat_toNat, BitVec.setWidth_eq]
    rw [hk]
    generalize k.toNat = n at h
    interval_cases n <;> exact ⟨rfl, rfl⟩
  · have range {k' : BitVec 10} (h : k' = k) : Raw.mmioRd (wordOffset k') = .mmioRd (wordOffset k) := by rw [h]
    split_ifs
    · exact ⟨rfl, range (ofNat_append_extract 9 1 15 k (by omega))⟩
    · exact ⟨rfl, range (ofNat_append_extract 5 5 1 k (by omega))⟩
    · exact ⟨rfl, range (ofNat_append_extract 4 6 1 k (by omega))⟩
    · exact ⟨rfl, range (ofNat_append_extract 3 7 1 k (by omega))⟩
    · exact ⟨rfl, range (ofNat_append_extract 2 8 1 k (by omega))⟩
    · exact ⟨rfl, range (ofNat_append_extract 1 9 1 k (by omega))⟩

/-- The word of a register write in place of the word of a register read. -/
def Raw.asWrite (v : Word) : Raw → Raw
  | .mmioRd offset => .mmioWr offset v
  | w => w

/-- A write decodes to the write of the register that a read at its offset reads (R86). -/
theorem decodeWr_like_decodeRd (a : BitVec 12) (v : Word) :
    (decodeWr a v).wf = (decodeRd a).wf ∧ encode (decodeWr a v) = (encode (decodeRd a)).asWrite v := by
  simp only [decodeRd, decodeWr]
  generalize a.extractLsb' 2 10 = k
  split_ifs with h
  · generalize k.toNat = n at h
    interval_cases n <;> exact ⟨rfl, rfl⟩
  all_goals exact ⟨rfl, rfl⟩

theorem decodeWr_reencodes (a : BitVec 12) (v : Word) :
    (decodeWr a v).wf = true ∧ encode (decodeWr a v) = .mmioWr (a &&& 0xFFC) v := by
  obtain ⟨hwf, henc⟩ := decodeWr_like_decodeRd a v
  obtain ⟨hwf', henc'⟩ := decodeRd_reencodes a
  exact ⟨hwf.trans hwf', henc.trans (congrArg (Raw.asWrite v) henc')⟩

/-- The framer's bytes: the ranges of the instruction's operand are the tests of R88's table. -/
theorem decodeByte_reencodes (f : FState) (b : Byte) :
    (decodeByte f b).wf = true ∧ encode (decodeByte f b) = .frameByte (frameWord f b) := by
  cases f with
  | lead | bdata | csum => exact ⟨rfl, rfl⟩
  | soh | subj | rstx | rlen | mark =>
    simp only [decodeByte]
    split_ifs <;> simp_all [Instr.wf, encode, frameWord, FState.code]
  | hlen | blen =>
    simp only [decodeByte]
    split_ifs with h
    · exact ⟨decide_eq_true h, rfl⟩
    · exact ⟨decide_eq_true (by omega), rfl⟩
  | offs =>
    simp only [decodeByte]
    split_ifs with hdigit hnul
    · simpa [Instr.wf, encode] using hdigit
    · subst hnul
      exact ⟨rfl, rfl⟩
    · refine ⟨?_, rfl⟩
      simp only [Instr.wf, ← Bool.decide_and, decide_eq_false hdigit, bne_iff_ne.2 hnul, Bool.not_false, Bool.and_self]

/-- The encoding of the framer state that a code names (10_state.md R24). -/
theorem FState.code_of_ofCode {v : BitVec 4} {f : FState} (h : FState.ofCode v = some f) : f.code = v := by
  revert v f
  decide

/-- A symbol's word is the literal or the match symbol less 256 below its bit 8 (R92). -/
theorem decodeSym_reencodes {w : BitVec 9} {i : Instr} (h : decodeSym w = .instr i) :
    i.wf = true ∧ encode i = .lzhSym w := by
  unfold decodeSym at h
  split_ifs at h with hlit hmatch
  · cases h
    exact ⟨rfl, congrArg Raw.lzhSym (ofNat_append_extract 1 8 0 w (by omega))⟩
  · cases h
    refine ⟨?_, congrArg Raw.lzhSym (ofNat_append_extract 1 8 1 w (by omega))⟩
    simp only [Instr.wf, BitVec.extractLsb'_toNat, Nat.shiftRight_zero, decide_eq_true_eq]
    omega

/-- The six classes of position codes cover the byte, and each is its range (R94). -/
theorem decodePos_reencodes (x : Byte) : (decodePos x).wf = true ∧ encode (decodePos x) = .lzhPos x := by
  unfold decodePos
  split_ifs
  all_goals
    refine ⟨?_, rfl⟩
    simp only [Instr.wf, Bool.and_eq_true, decide_eq_true_eq]
    omega

/-- Settles O10, format by format. -/
theorem decodedWordsReencode : Obligations.DecodedWordsReencode := by
  intro w i h
  cases w with
  | cmd w =>
    cases h
    obtain ⟨hwf, henc⟩ := decodeCmd_reencodes w
    exact ⟨hwf, by rw [henc]⟩
  | mmioRd a =>
    cases h
    obtain ⟨hwf, henc⟩ := decodeRd_reencodes a
    exact ⟨hwf, by rw [henc]⟩
  | mmioWr a v =>
    cases h
    obtain ⟨hwf, henc⟩ := decodeWr_reencodes a v
    exact ⟨hwf, by rw [henc]; exact ⟨rfl, rfl⟩⟩
  | frameByte w =>
    simp only [decode] at h
    split at h
    · next f hf =>
      cases h
      obtain ⟨hwf, henc⟩ := decodeByte_reencodes f (w.extractLsb' 0 8)
      have hw : frameWord f (w.extractLsb' 0 8) = w := by
        rw [frameWord, FState.code_of_ofCode hf, extract_append_extract 4 8 w]
      exact ⟨hwf, by rw [henc, hw]⟩
    · cases h
  | lzhSym w =>
    obtain ⟨hwf, henc⟩ := decodeSym_reencodes h
    exact ⟨hwf, by rw [henc]⟩
  | lzhPos x =>
    cases h
    obtain ⟨hwf, henc⟩ := decodePos_reencodes x
    exact ⟨hwf, by rw [henc]⟩

end Sys2Proof
end

section
/-!
Register accesses (20_memory.md R81; 40_host_commands.md R120 to R129): each completes and raises nothing, and each acts
on the word at its offset. Settles O20 and O7.
-/

namespace Sys2Proof.Machine

/-! ### Accesses other than a write of CMD -/

/-- From `s` to `t` no phase has moved, no error is raised and no interrupt is pending that was not. -/
structure Quiet (s t : State) : Prop where
  ctl : t.ctl = s.ctl
  err : t.err = s.err
  irqErr : t.host.irqErr = true → s.host.irqErr = true
  irqDone : t.host.irqDone = true → s.host.irqDone = true

/-- The result is a next state, quietly reached from `s`. -/
def CompletesQuietly (s : State) (r : Result) : Prop := ∃ t, r = .next t ∧ Quiet s t

theorem CompletesQuietly.next {s t : State} (h : Quiet s t) : CompletesQuietly s (.next t) := ⟨t, rfl, h⟩

/-- What leaves the control state, the error registers and the pending bits alone is quiet. -/
theorem Quiet.of_eq {s t : State} (hctl : t.ctl = s.ctl) (herr : t.err = s.err)
    (hirqErr : t.host.irqErr = s.host.irqErr) (hirqDone : t.host.irqDone = s.host.irqDone) : Quiet s t :=
  ⟨hctl, herr, fun h => hirqErr ▸ h, fun h => hirqDone ▸ h⟩

theorem Quiet.refl (s : State) : Quiet s s := .of_eq rfl rfl rfl rfl

theorem Quiet.answer (s : State) (v : Word) : Quiet s (s.answer v) := .of_eq rfl rfl rfl rfl

theorem Quiet.refuse (s : State) : Quiet s s.refuse := .of_eq rfl rfl rfl rfl

theorem execRdImgData_quiet (s : State) : CompletesQuietly s (execRdImgData s) := by
  unfold execRdImgData
  split
  · exact .next (.answer s 0)
  · exact .next (.of_eq rfl rfl rfl rfl)

theorem execWrImageLen_quiet (v : Word) (s : State) : CompletesQuietly s (execWrImageLen v s) := by
  unfold execWrImageLen
  split
  · exact .next (.refuse s)
  · exact .next (.of_eq rfl rfl rfl rfl)

theorem execWrImgData_quiet (v : Word) (s : State) : CompletesQuietly s (execWrImgData v s) := by
  unfold execWrImgData State.storeImgData
  split
  · exact .next (.refuse s)
  · split <;> exact .next (.of_eq rfl rfl rfl rfl)

/-- A write of IRQ_STATUS clears pending bits and sets none (R124). -/
theorem execWrIrqStatus_quiet (v : Word) (s : State) : CompletesQuietly s (execWrIrqStatus v s) :=
  .next ⟨rfl, rfl, Bool.and_elim_left, Bool.and_elim_left⟩

/-- The other reads answer a value, and the other writes touch the host's own registers or nothing. -/
theorem exec_access_quiet {i : Instr} (h : isRegisterAccess i = true) (s : State) : CompletesQuietly s (exec i s) := by
  cases i with
  | nop | run | frameOnly | decodeOnly | abort | clear | cmdReserved6 | cmdReserved7 | cmdReserved8 | cmdReserved9
  | cmdReservedA | cmdReservedB | cmdReservedC | cmdReservedD | cmdReservedE | cmdReservedF | wrCmd _
  | soh | errMissingHeaderMarker _ | hlen _ | errMalformedHeaderR1 _ | subjNul | subjByte _ | offsNul | offsDigit _
  | errMalformedHeaderR4 _ | resStx | errMalformedResumeStx _ | resLen | errMalformedResumeLen _ | leadByte _
  | blkStx | blkEot | errUnexpectedBlockMarker _ | blkLen _ | errBlockLengthInvalid _ | blkData _ | csum _
  | lit _ | matchSym _ | pos3 _ | pos4 _ | pos5 _ | pos6 _ | pos7 _ | pos8 _ => cases h
  | rdImgData => exact execRdImgData_quiet s
  | wrImageLen v => exact execWrImageLen_quiet v s
  | wrImgData v => exact execWrImgData_quiet v s
  | wrIrqStatus v => exact execWrIrqStatus_quiet v s
  | _ => exact .next (.of_eq rfl rfl rfl rfl)

/-- Settles O20. -/
theorem accessesNeverRaise : Obligations.AccessesNeverRaise := by
  intro i s h
  obtain ⟨t, hexec, hquiet⟩ := exec_access_quiet h s
  exact ⟨t, hexec, hquiet.ctl, hquiet.err, hquiet.irqErr, hquiet.irqDone⟩

/-! ### Accesses by offset (20_memory.md R81) -/

/-- The word that an offset selects is that of the masked offset. -/
theorem extract_offset_mask (a : BitVec 12) : (a &&& 0xFFC).extractLsb' 2 10 = a.extractLsb' 2 10 := by
  rw [offset_mask, wordOffset, BitVec.extractLsb'_append_eq_left]

theorem decodeRd_mask (a : BitVec 12) : decodeRd (a &&& 0xFFC) = decodeRd a := by
  simp only [decodeRd, extract_offset_mask]

theorem decodeWr_mask (a : BitVec 12) (v : Word) : decodeWr (a &&& 0xFFC) v = decodeWr a v := by
  simp only [decodeWr, extract_offset_mask]

theorem isRegisterAccess_decodeRd (a : BitVec 12) : isRegisterAccess (decodeRd a) = true := by
  simp [isRegisterAccess, (decodeRd_reencodes a).2]

/-- A write is of CMD, at its word, or one of the other accesses. -/
theorem decodeWr_cases (a : BitVec 12) (v : Word) :
    decodeWr a v = .wrCmd v ∨ isRegisterAccess (decodeWr a v) = true := by
  by_cases h : a &&& 0xFFC = 0x00C
  · left
    rw [← decodeWr_mask, h]
    rfl
  · right
    simpa [isRegisterAccess, (decodeWr_reencodes a v).2] using h

/-- Every command completes (40_host_commands.md R110 to R119). -/
theorem runCommand_completes (v : Word) (s : State) : ∃ t, runCommand v s = .next t := by
  unfold runCommand
  split
  case h_5 => unfold execAbort; split <;> exact ⟨_, rfl⟩
  case h_6 => unfold execClear; split <;> exact ⟨_, rfl⟩
  all_goals exact ⟨_, rfl⟩

/-- Settles O7: the decoder reads the word's bits alone, and what it answers is an access that completes. -/
theorem accessesIgnoreLowOffsetBits : Obligations.AccessesIgnoreLowOffsetBits := by
  intro a v
  have completes {i : Instr} (hi : isRegisterAccess i = true) (s : State) : ∃ t, exec i s = .next t := by
    obtain ⟨t, hexec, _⟩ := exec_access_quiet hi s
    exact ⟨t, hexec⟩
  refine ⟨congrArg Decoded.instr (decodeRd_mask a).symm, congrArg Decoded.instr (decodeWr_mask a v).symm,
    ⟨decodeRd a, rfl, completes (isRegisterAccess_decodeRd a)⟩, ⟨decodeWr a v, rfl, ?write⟩⟩
  case write =>
    rcases decodeWr_cases a v with hcmd | haccess
    · rw [hcmd]
      exact runCommand_completes v
    · exact completes haccess

end Sys2Proof.Machine
end

section
/-!
Who stores to the three memories (20_memory.md R65 to R67): the four storing instructions alone. Settles O48.
-/

namespace Sys2Proof.Machine

open Sys2Proof.Config (Params)

/-! ### What the reads of the three memories depend on -/

/-- The three memories, and what an address that is not listed holds. -/
def State.memory (s : State) : Memory × Memory × Memory × Params × Nat := (s.img, s.hist, s.subj, s.params, s.epoch)

/-- `t` has the memories of `s`. -/
def KeepsMemory (s t : State) : Prop := t.memory = s.memory

/-- The same memories show the same bytes. -/
theorem KeepsMemory.reads {s t : State} (h : KeepsMemory s t) :
    (∀ a, t.readImg a = s.readImg a) ∧ (∀ k, t.readHist k = s.readHist k) ∧ ∀ j, t.readSubj j = s.readSubj j := by
  simp only [KeepsMemory, State.memory, Prod.mk.injEq] at h
  obtain ⟨himg, hhist, hsubj, hparams, hepoch⟩ := h
  simp [State.readImg, State.readHist, State.readSubj, himg, hhist, hsubj, hparams, hepoch]

/-! ### The host's instructions -/

theorem start_keepsMemory (s : State) (keep : Bool) (mode : Mode) (phase : Phase) :
    KeepsMemory s (s.start keep mode phase) := by
  cases hb : s.busy with
  | true => rw [State.start_busy hb]; rfl
  | false => rw [State.start_idle hb]; rfl

theorem execAbort_keepsMemory (s : State) : Ensures (KeepsMemory s) (execAbort s) := by
  unfold execAbort
  split <;> exact .next rfl

theorem execClear_keepsMemory (s : State) : Ensures (KeepsMemory s) (execClear s) := by
  unfold execClear
  split <;> exact .next rfl

theorem runCommand_keepsMemory (v : Word) (s : State) : Ensures (KeepsMemory s) (runCommand v s) := by
  unfold runCommand
  split
  case h_2 | h_3 | h_4 => exact .next (start_keepsMemory s _ _ _)
  case h_5 => exact execAbort_keepsMemory s
  case h_6 => exact execClear_keepsMemory s
  all_goals exact .next rfl

theorem execRdImgData_keepsMemory (s : State) : Ensures (KeepsMemory s) (execRdImgData s) := by
  unfold execRdImgData
  split <;> exact .next rfl

theorem execWrImageLen_keepsMemory (v : Word) (s : State) : Ensures (KeepsMemory s) (execWrImageLen v s) := by
  unfold execWrImageLen
  split <;> exact .next rfl

/-! ### The framer's instructions -/

theorem execSubjNul_keepsMemory (s : State) : Ensures (KeepsMemory s) (execSubjNul s) := by
  simp only [execSubjNul]
  split <;> exact .next rfl

theorem execOffsNul_keepsMemory (s : State) : Ensures (KeepsMemory s) (execOffsNul s) := by
  simp only [execOffsNul]
  split_ifs <;> exact .next rfl

theorem execOffsDigit_keepsMemory (b : Byte) (s : State) : Ensures (KeepsMemory s) (execOffsDigit b s) := by
  simp only [execOffsDigit]
  split
  · exact .next rfl
  · split <;> exact .next rfl

theorem execLeadByte_keepsMemory (b : Byte) (s : State) : Ensures (KeepsMemory s) (execLeadByte b s) := by
  simp only [execLeadByte]
  split <;> exact .next rfl

theorem execCsum_keepsMemory (b : Byte) (s : State) : Ensures (KeepsMemory s) (execCsum b s) := by
  simp only [execCsum]
  split_ifs <;> exact .next rfl

/-! ### The decoder's instructions -/

/-- A match symbol writes the tables and `sym` (42_lzhuf.md R191). -/
theorem execMatchSym_keepsMemory (m : Byte) (s : State) : Ensures (KeepsMemory s) (execMatchSym m s) := by
  unfold execMatchSym State.takeSymbol
  split
  · exact ensures_fault _ _
  · next h =>
    split at h
    · cases h
    · cases h
      exact .next rfl

/-- A position code moves the bit position and writes the match's source and length, or raises (42_lzhuf.md R194). -/
theorem State.position_keepsMemory (s : State) (hi extra : Nat) (x : Byte) : KeepsMemory s (s.position hi extra x) := by
  unfold State.position State.decodePosition
  cases e : State.getBits extra x.toNat s with
  | error u =>
    obtain ⟨k, rfl⟩ := State.getBits_error_atBit e
    rfl
  | ok r =>
    obtain ⟨v, u⟩ := r
    obtain ⟨rfl, _⟩ := State.getBits_ok e
    simp only
    split <;> rfl

/-! ### Every instruction -/

/-- The instructions that have no branch write registers alone. -/
theorem exec_keepsMemory {i : Instr} (h : mayStore i = false) (s : State) : Ensures (KeepsMemory s) (exec i s) := by
  cases i with
  | wrImgData _ | subjByte _ | blkData _ | lit _ => cases h
  | run | frameOnly | decodeOnly => exact .next (start_keepsMemory s _ _ _)
  | abort => exact execAbort_keepsMemory s
  | clear => exact execClear_keepsMemory s
  | wrCmd v => exact runCommand_keepsMemory v s
  | rdImgData => exact execRdImgData_keepsMemory s
  | wrImageLen v => exact execWrImageLen_keepsMemory v s
  | subjNul => exact execSubjNul_keepsMemory s
  | offsNul => exact execOffsNul_keepsMemory s
  | offsDigit b => exact execOffsDigit_keepsMemory b s
  | leadByte b => exact execLeadByte_keepsMemory b s
  | csum b => exact execCsum_keepsMemory b s
  | matchSym m => exact execMatchSym_keepsMemory m s
  | pos3 _ | pos4 _ | pos5 _ | pos6 _ | pos7 _ | pos8 _ => exact .next (s.position_keepsMemory _ _ _)
  | _ => exact .next rfl

/-- Settles O48. -/
theorem otherInstructionsKeepMemory : Obligations.OtherInstructionsKeepMemory :=
  fun _ s t hi ht => (exec_keepsMemory hi s t ht).reads

end Sys2Proof.Machine
end

section
/-!
The encoder against the decoder (30_encoding.md R85 to R94): decoding takes back every encoding, and the tables of the
command words and of the framer's bytes are followed. Settles O9, O8, O6 and O5.
-/

namespace Sys2Proof

/-! ### Framer words (30_encoding.md R88) -/

theorem FState.ofCode_code (f : FState) : FState.ofCode f.code = some f := by
  cases f <;> rfl

/-- A framer word decodes by its state and its byte. -/
theorem decode_frameWord (f : FState) (b : Byte) : decode (.frameByte (frameWord f b)) = .instr (decodeByte f b) := by
  have hcode : (frameWord f b).extractLsb' 8 4 = f.code := BitVec.extractLsb'_append_eq_left
  have hbyte : (frameWord f b).extractLsb' 0 8 = b := BitVec.extractLsb'_append_eq_right
  simp only [decode, hcode, hbyte, FState.ofCode_code]

theorem Byte.lt_two_iff (b : Byte) : b.toNat < 2 ↔ b = 0x00 ∨ b = 0x01 := by
  rw [← BitVec.toNat_inj, ← BitVec.toNat_inj]
  exact Nat.lt_succ_iff.trans Nat.le_one_iff_eq_zero_or_eq_one

/-- Settles O8: every framer word decodes by `decodeByte`, whose tests on the byte's number are R88's on the byte. -/
theorem framerOpcodeMapIsFollowed : Obligations.FramerOpcodeMapIsFollowed := by
  intro b
  simp only [decode_frameWord]
  refine ⟨rfl, ?hlen, rfl, rfl, rfl, rfl, rfl, rfl, rfl, rfl, rfl⟩
  case hlen => simp only [decodeByte, Byte.lt_two_iff]

/-! ### Command words (30_encoding.md R85) -/

/-- The command of each code. -/
def commandTable : List (Nat × Instr) :=
  [(0x0, .nop), (0x1, .run), (0x2, .frameOnly), (0x3, .decodeOnly), (0x4, .abort), (0x5, .clear), (0x6, .cmdReserved6),
    (0x7, .cmdReserved7), (0x8, .cmdReserved8), (0x9, .cmdReserved9), (0xA, .cmdReservedA), (0xB, .cmdReservedB),
    (0xC, .cmdReservedC), (0xD, .cmdReservedD), (0xE, .cmdReservedE), (0xF, .cmdReservedF)]

/-- A command word decodes as its low four bits alone do. -/
theorem decodeCmd_low_bits (w : Word) : decodeCmd w = decodeCmd ((w.extractLsb' 0 4).setWidth 32) := by
  have hlow (code : BitVec 4) : (code.setWidth 32).extractLsb' 0 4 = code := by revert code; decide
  simp only [decodeCmd, hlow]

theorem decodeCmd_of_mem {w : Word} {i : Instr} (h : (w.toNat % 16, i) ∈ commandTable) : decodeCmd w = i := by
  have table : ∀ code : BitVec 4, ∀ e ∈ commandTable, e.1 = code.toNat → decodeCmd (code.setWidth 32) = e.2 := by
    decide
  exact (decodeCmd_low_bits w).trans (table _ _ h (by simp))

/-- Settles O6: a write of CMD runs the command that its data word decodes to. -/
theorem commandWordBitsSelectCommand : Obligations.CommandWordBitsSelectCommand := by
  intro w i h
  have hdec : decodeCmd w = i := decodeCmd_of_mem h
  exact ⟨congrArg Decoded.instr hdec, rfl, fun s => hdec ▸ (Machine.exec_decodeCmd w s).symm⟩

/-- Settles O5. -/
theorem decoderReadsSpecWords : Obligations.DecoderReadsSpecWords := by
  refine ⟨?cmdRun, ?cmdAbort, ?rdStatus, ?rdSubject, ?wrCtrl, ?wrImgData, ?soh, ?hlen, ?blkData, ?lit, ?matchSym, ?pos5,
    ?pos8⟩
  all_goals rfl

/-! ### Words of the register window (30_encoding.md R86) -/

/-- The number of a word by its parts. -/
theorem toNat_append_parts {m n : Nat} (u : BitVec m) (k : BitVec n) : (u ++ k).toNat = 2 ^ n * u.toNat + k.toNat := by
  rw [BitVec.toNat_append, ← Nat.shiftLeft_add_eq_or_of_lt k.isLt, Nat.shiftLeft_eq, Nat.mul_comm]

@[simp] theorem extract_wordOffset (k : BitVec 10) : (wordOffset k).extractLsb' 2 10 = k :=
  BitVec.extractLsb'_append_eq_left

/-- An access at `offset` decodes to the read, or the write, of one register. -/
def AccessDecodes (offset : BitVec 12) (read : Instr) (write : Word → Instr) : Prop :=
  decodeRd offset = read ∧ ∀ v, decodeWr offset v = write v

/-- The six ranges of words above the registers of their own, each by its upper bits. -/
theorem ranges_decode :
    (∀ k : BitVec 6, AccessDecodes (wordOffset ((1 : BitVec 4) ++ k)) (.rdSubject k) (.wrSubject k)) ∧
    (∀ k : BitVec 1, AccessDecodes (wordOffset ((15 : BitVec 9) ++ k)) (.rdReserved078 k) (.wrReserved078 k)) ∧
    (∀ k : BitVec 5, AccessDecodes (wordOffset ((1 : BitVec 5) ++ k)) (.rdReserved080 k) (.wrReserved080 k)) ∧
    (∀ k : BitVec 7, AccessDecodes (wordOffset ((1 : BitVec 3) ++ k)) (.rdReserved200 k) (.wrReserved200 k)) ∧
    (∀ k : BitVec 8, AccessDecodes (wordOffset ((1 : BitVec 2) ++ k)) (.rdReserved400 k) (.wrReserved400 k)) ∧
    ∀ k : BitVec 9, AccessDecodes (wordOffset ((1 : BitVec 1) ++ k)) (.rdReserved800 k) (.wrReserved800 k) := by
  refine ⟨?_, ?_, ?_, ?_, ?_, ?_⟩
  all_goals
    intro k
    have hk := k.isLt
    simp only [AccessDecodes, decodeRd, decodeWr, extract_wordOffset, BitVec.extractLsb'_append_eq_right,
      toNat_append_parts, BitVec.reduceToNat]
    simp (disch := omega) only [if_pos, if_neg]
    exact ⟨trivial, fun _ => trivial⟩

/-! ### Every instruction -/

theorem decode_framer {f : FState} {b : Byte} {i : Instr} (h : decodeByte f b = i) :
    decode (.frameByte (frameWord f b)) = .instr i := (decode_frameWord f b).trans (congrArg _ h)

/-- The word of a symbol by its bit 8 and the byte below it (R92). -/
theorem decodeSym_append (c : Byte) :
    decodeSym ((0 : BitVec 1) ++ c) = .instr (.lit c) ∧
      (c.toNat ≤ 254 → decodeSym ((1 : BitVec 1) ++ c) = .instr (.matchSym c)) := by
  have hc := c.isLt
  simp only [decodeSym, toNat_append_parts, BitVec.extractLsb'_append_eq_right, BitVec.reduceToNat]
  exact ⟨if_pos (by omega), fun h => (if_neg (by omega)).trans (if_pos (by omega))⟩

/-- A position code decodes to its own class, whose range the row states (R94). -/
theorem decodePos_of_class (x : Byte) {i : Instr}
    (hi : i ∈ [Instr.pos3 x, .pos4 x, .pos5 x, .pos6 x, .pos7 x, .pos8 x]) (h : i.wf = true) : decodePos x = i := by
  simp only [List.mem_cons, List.not_mem_nil, or_false] at hi
  unfold decodePos
  rcases hi with rfl | rfl | rfl | rfl | rfl | rfl <;>
    (simp only [Instr.wf, Bool.and_eq_true, decide_eq_true_eq] at h; simp (disch := omega) only [if_pos, if_neg])

/-- Settles O9: the words of no operand by computation, the ranges of the register window by their upper bits, and the
framer's bytes, the symbols and the position codes by the ranges that `Instr.wf` states. -/
theorem decodeTakesBackEncode : Obligations.DecodeTakesBackEncode := by
  intro i h
  obtain ⟨subject, reserved078, reserved080, reserved200, reserved400, reserved800⟩ := ranges_decode
  cases i with
  | rdSubject k => exact congrArg _ (subject k).1
  | rdReserved078 k => exact congrArg _ (reserved078 k).1
  | rdReserved080 k => exact congrArg _ (reserved080 k).1
  | rdReserved200 k => exact congrArg _ (reserved200 k).1
  | rdReserved400 k => exact congrArg _ (reserved400 k).1
  | rdReserved800 k => exact congrArg _ (reserved800 k).1
  | wrSubject k v => exact congrArg _ ((subject k).2 v)
  | wrReserved078 k v => exact congrArg _ ((reserved078 k).2 v)
  | wrReserved080 k v => exact congrArg _ ((reserved080 k).2 v)
  | wrReserved200 k v => exact congrArg _ ((reserved200 k).2 v)
  | wrReserved400 k v => exact congrArg _ ((reserved400 k).2 v)
  | wrReserved800 k v => exact congrArg _ ((reserved800 k).2 v)
  | errMissingHeaderMarker b | subjByte b | errMalformedResumeStx b | errMalformedResumeLen b =>
    exact decode_framer (if_neg (bne_iff_ne.1 h))
  | hlen b => exact decode_framer (if_neg (Nat.not_lt.2 (of_decide_eq_true h)))
  | errMalformedHeaderR1 b | blkLen b => exact decode_framer (if_pos (of_decide_eq_true h))
  | errBlockLengthInvalid b => exact decode_framer (if_neg (Nat.not_le.2 (of_decide_eq_true h)))
  | offsDigit b =>
    simp only [Instr.wf, ← Bool.decide_and, decide_eq_true_eq] at h
    exact decode_framer (if_pos h)
  | errMalformedHeaderR4 b =>
    simp only [Instr.wf, ← Bool.decide_and, Bool.and_eq_true, bne_iff_ne, Bool.not_eq_true',
      decide_eq_false_iff_not] at h
    obtain ⟨hnul, hdigit⟩ := h
    exact decode_framer ((if_neg hdigit).trans (if_neg hnul))
  | errUnexpectedBlockMarker b =>
    simp only [Instr.wf, Bool.and_eq_true, bne_iff_ne] at h
    obtain ⟨hstx, heot⟩ := h
    exact decode_framer ((if_neg hstx).trans (if_neg heot))
  | leadByte b | blkData b | csum b => exact decode_frameWord _ b
  | lit c => exact (decodeSym_append c).1
  | matchSym m => exact (decodeSym_append m).2 (of_decide_eq_true h)
  | pos3 x | pos4 x | pos5 x | pos6 x | pos7 x | pos8 x => exact congrArg _ (decodePos_of_class x (by simp) h)
  | _ => rfl

end Sys2Proof
end

section
/-!
The position codes (30_encoding.md R94; 42_lzhuf.md R193, R194): what is read of a code, class by class, and the round trip
of every position through its code. Settles O42 and O43.
-/

namespace Sys2Proof.Machine

/-! ### The body's bits as numbers (20_memory.md R79) -/

theorem State.bitsFrom_add (s : State) (k m n : Nat) :
    s.bitsFrom k (m + n) = 2 ^ n * s.bitsFrom k m + s.bitsFrom (k + m) n := by
  induction n with
  | zero => simp [State.bitsFrom]
  | succ n ih =>
    rw [← Nat.add_assoc, State.bitsFrom, ih, State.bitsFrom, Nat.add_assoc k m n, pow_succ]
    ring

theorem State.bitsFrom_lt (s : State) (k n : Nat) : s.bitsFrom k n < 2 ^ n := by
  induction n with
  | zero => simp [State.bitsFrom]
  | succ n ih =>
    have hb := Bool.toNat_lt (s.bodyBit (k + n))
    rw [State.bitsFrom, pow_succ]
    omega

theorem State.bitsFrom_atBit (s : State) (j k n : Nat) : (s.atBit j).bitsFrom k n = s.bitsFrom k n := by
  induction n with
  | zero => rfl
  | succ n ih => rw [State.bitsFrom, ih]; rfl

/-- GetBits(n) with fewer than n bits left uses up the body (42_lzhuf.md R183). -/
theorem State.getBits_of_short {s : State} {n : Nat} (v : Nat) (hle : s.dec.bitpos ≤ s.bodyBits)
    (h : s.bodyBits < s.dec.bitpos + n) : State.getBits n v s = .error (s.atBit s.bodyBits) := by
  cases e : State.getBits n v s with
  | error u => rw [(State.getBits_error hle e).1]
  | ok r =>
    obtain ⟨_, hbits⟩ := State.getBits_ok e
    omega

/-! ### The rest of a position code (42_lzhuf.md R193, R194) -/

/-- Position `p` read with `bits` bits: the window check, then the match's source and length. -/
theorem State.position_of_left {s : State} (hi : Nat) {extra : Nat} (x : Byte) (h : s.dec.bitpos + extra ≤ s.bodyBits) :
    s.position hi extra x =
      s.afterPosition (64 * hi + (2 ^ extra * x.toNat + s.bitsFrom s.dec.bitpos extra) % 64) extra := by
  simp only [State.position, State.decodePosition, State.getBits_of_left extra x.toNat s h]
  generalize 64 * hi + (2 ^ extra * x.toNat + s.bitsFrom s.dec.bitpos extra) % 64 = p
  have hunder : (s.atBit (s.dec.bitpos + extra)).underflows p = true ↔
      s.params.N ≤ p ∨ (s.host.cfgStrict = true ∧ s.dec.outCount.toNat < p + 1) := by
    rw [State.underflows, Bool.or_eq_true, Bool.and_eq_true, decide_eq_true_eq, decide_eq_true_eq]
    rfl
  simp only [hunder, State.afterPosition]
  split
  · rfl
  · simp only [histIndex, Nat.sub_sub]
    rfl

theorem State.position_of_short {s : State} (hi : Nat) {extra : Nat} (x : Byte) (hle : s.dec.bitpos ≤ s.bodyBits)
    (h : s.bodyBits < s.dec.bitpos + extra) : s.position hi extra x = s.outOfBits := by
  simp only [State.position, State.decodePosition, State.getBits_of_short x.toNat hle h]
  rfl

/-- An instruction that goes on to `position` reads the rest of the code. -/
theorem readsPosition_of_exec {i : Instr} {hi extra : Nat} {x : Byte} {s : State}
    (h : exec i s = .next (s.position hi extra x)) : ReadsPosition i hi extra x s :=
  ⟨fun hleft => by rw [h, State.position_of_left hi x hleft],
    fun hle hshort => by rw [h, State.position_of_short hi x hle hshort]⟩

/-- Settles O42. -/
theorem positionStepsFollowTheTable : Obligations.PositionStepsFollowTheTable := fun _ _ =>
  ⟨fun _ => readsPosition_of_exec rfl, fun _ _ => readsPosition_of_exec rfl, fun _ _ => readsPosition_of_exec rfl,
    fun _ _ => readsPosition_of_exec rfl, fun _ _ => readsPosition_of_exec rfl, fun _ => readsPosition_of_exec rfl⟩

/-! ### The table of R94, read and written -/

/-- The class of a first byte reads on by d_code and d_len (R94). -/
theorem exec_decodePos_eq (x : Byte) (s : State) :
    exec (decodePos x) s = .next (s.position (dCode x) (dLen x - 2) x) := by
  unfold decodePos dCode dLen
  split_ifs <;> rfl

/-- The first 8 bits of hi's code and lo give the code's length and hi back: d_len and d_code take back `hiCode`. -/
theorem dCode_of_hiCode {hi lo : Nat} {x : Byte} (hhi : hi < 64) (hlo : lo < 64)
    (hx : x.toNat = (64 * (hiCode hi).2 + lo) / 2 ^ ((hiCode hi).1 - 2)) :
    dCode x = hi ∧ dLen x = (hiCode hi).1 := by
  revert hx
  unfold hiCode
  split_ifs
  all_goals
    intro hx
    simp only [Nat.reduceSub, Nat.reducePow] at hx
    simp (disch := omega) only [dCode, dLen, if_pos, if_neg]
    refine ⟨?_, trivial⟩
    omega

theorem hiCode_length (hi : Nat) : 3 ≤ (hiCode hi).1 ∧ (hiCode hi).1 ≤ 8 := by
  unfold hiCode
  split_ifs <;> simp

/-- A position read after the first 8 bits of its code is the position read with the whole code. -/
theorem State.afterPosition_atBit (s : State) (p m n : Nat) :
    (s.atBit (s.dec.bitpos + m)).afterPosition p n = s.afterPosition p (m + n) := by
  simp only [State.afterPosition, State.atBit, Nat.add_assoc]

/-- The engine's turn in D_POS with a whole code left. -/
theorem posTurn_of_code {s : State} {hi lo : Nat} (hhi : hi < 64) (hlo : lo < 64)
    (hleft : s.dec.bitpos + (hiCode hi).1 + 6 ≤ s.bodyBits)
    (hbits : s.bitsFrom s.dec.bitpos ((hiCode hi).1 + 6) = 64 * (hiCode hi).2 + lo) :
    posTurn s = .next (s.afterPosition (64 * hi + lo) ((hiCode hi).1 + 6)) := by
  obtain ⟨hge, hle⟩ := hiCode_length hi
  obtain ⟨extra, hextra⟩ : ∃ extra, (hiCode hi).1 = extra + 2 := ⟨_, (Nat.sub_add_cancel (by omega)).symm⟩
  have hlen : (hiCode hi).1 + 6 = 8 + extra := by omega
  rw [hlen] at hbits ⊢
  set first := s.bitsFrom s.dec.bitpos 8
  set rest := s.bitsFrom (s.dec.bitpos + 8) extra
  have hrest : rest < 2 ^ extra := s.bitsFrom_lt _ _
  have hfirst : first < 2 ^ 8 := s.bitsFrom_lt _ _
  have hsplit : 2 ^ extra * first + rest = 64 * (hiCode hi).2 + lo := by rw [← hbits, s.bitsFrom_add]
  have hx : (BitVec.ofNat 8 first).toNat = first := Nat.mod_eq_of_lt hfirst
  obtain ⟨hcode, hdlen⟩ := dCode_of_hiCode (x := BitVec.ofNat 8 first) hhi hlo (by
    rw [hx, ← hsplit, hextra, Nat.add_sub_cancel, Nat.mul_add_div (by positivity), Nat.div_eq_of_lt hrest,
      Nat.add_zero])
  have hlow : (2 ^ extra * first + rest) % 64 = lo := by omega
  rw [posTurn_of_left (by omega), runWord_of_decode rfl, exec_decodePos_eq, hcode, hdlen, hextra, Nat.add_sub_cancel,
    State.position_of_left hi _ (by show s.dec.bitpos + 8 + extra ≤ s.bodyBits; omega), State.bitsFrom_atBit, hx,
    State.afterPosition_atBit]
  show Host.Outcome.next (s.afterPosition (64 * hi + (2 ^ extra * first + rest) % 64) _) = _
  rw [hlow]

theorem posTurn_of_short {s : State} (hle : s.dec.bitpos ≤ s.bodyBits) (h : s.bodyBits < s.dec.bitpos + 8) :
    posTurn s = .next s.outOfBits := by
  simp only [posTurn, State.getBits_of_short 0 hle h]
  rfl

/-- Settles O43. -/
theorem positionCodesRoundTrip : Obligations.PositionCodesRoundTrip := by
  intro s e he hp hd
  rw [step_eq_engineTurn he, engineTurn_pos hp hd]
  exact ⟨fun _ _ hhi hlo hleft hbits => posTurn_of_code hhi hlo hleft hbits, posTurn_of_short⟩

end Sys2Proof.Machine
end

section
/-!
The symbol codes of the initial tree (30_encoding.md R93; 42_lzhuf.md R186, R191): the node that the walk has reached after
each bit, for every parameter set, and the codes of the default one. Settles O38.
-/

namespace Sys2Proof.Machine

open Sys2Proof.Config (Params)

/-! ### One bit of the walk -/

theorem walkFrom_leaf_eq {left n : Nat} {s : State} (h : s.params.T ≤ n) :
    walkFrom left n s = .leaf (n - s.params.T) s := by
  unfold walkFrom
  exact if_pos h

/-- From the children of an internal node one bit selects the child whose entry is next. -/
theorem walkFrom_bit {left n c : Nat} {s : State} (h : n < s.params.T)
    (hc : s.huff.sonAt (n + (s.bodyBit s.dec.bitpos).toNat) = some c) :
    walkFrom (left + 1) n s = walkFrom left c s.skipBit := by
  rw [walkFrom, if_neg (Nat.not_le.2 h)]
  simp only [hc]

/-! ### The walk in the initial tree -/

/-- The node that the walk in the initial tree reaches with `j` bits of value `v` (R186: node N_CHAR + m stands over the
nodes 2m and 2m + 1). -/
def initialNode (p : Params) (j v : Nat) : Nat := 2 * p.nChar + v - 2 ^ (j + 1)

/-- The walk from the entry of node `k` of the initial tree, `j` bits having been read. -/
def WalkReaches (s : State) (j k : Nat) : Prop :=
  ∃ c, s.huff.sonAt k = some c ∧
    s.walk = walkFrom (s.bodyBits - (s.dec.bitpos + j)) c (s.atBit (s.dec.bitpos + j))

section
variable {s : State} (hs : s.huff = startHuff s.params)
include hs

/-- With no bit read the walk is at the root. -/
theorem walkReaches_zero : WalkReaches s 0 (initialNode s.params 0 (s.bitsFrom s.dec.bitpos 0)) := by
  have ha := params_alphabet s.params
  have hroot : initialNode s.params 0 (s.bitsFrom s.dec.bitpos 0) = s.params.root := by
    simp only [initialNode, State.bitsFrom]
    omega
  have hson : s.huff.sonAt s.params.root = some (2 * (s.params.root - s.params.nChar)) := by
    rw [hs, startHuff_sonAt, if_neg (by omega), if_pos (by omega)]
  rw [hroot]
  exact ⟨_, hson, by simp only [State.walk, hson]; rfl⟩

/-- One bit more, from an internal node. -/
theorem walkReaches_succ {j : Nat} (hinternal : s.params.nChar ≤ initialNode s.params j (s.bitsFrom s.dec.bitpos j))
    (hleft : s.dec.bitpos + (j + 1) ≤ s.bodyBits)
    (h : WalkReaches s j (initialNode s.params j (s.bitsFrom s.dec.bitpos j))) :
    WalkReaches s (j + 1) (initialNode s.params (j + 1) (s.bitsFrom s.dec.bitpos (j + 1))) := by
  have ha := params_alphabet s.params
  have hv := s.bitsFrom_lt s.dec.bitpos j
  obtain ⟨c, hc, hwalk⟩ := h
  have hbit := Bool.toNat_lt (s.bodyBit (s.dec.bitpos + j))
  set v := s.bitsFrom s.dec.bitpos j
  set b := (s.bodyBit (s.dec.bitpos + j)).toNat
  have hnode : initialNode s.params (j + 1) (2 * v + b) = 2 * (initialNode s.params j v - s.params.nChar) + b := by
    simp only [initialNode, pow_succ] at hinternal ⊢
    omega
  have hlt : initialNode s.params j v < s.params.T := by
    simp only [initialNode, pow_succ]
    omega
  rw [hs, startHuff_sonAt, if_neg (by omega), if_pos hlt] at hc
  cases hc
  have hT : 2 * (initialNode s.params j v - s.params.nChar) + b < s.params.T := by omega
  obtain ⟨c', hc'⟩ : ∃ c', s.huff.sonAt (2 * (initialNode s.params j v - s.params.nChar) + b) = some c' := by
    rw [hs, startHuff_sonAt]
    split_ifs <;> exact ⟨_, rfl⟩
  refine ⟨c', by rw [State.bitsFrom, hnode]; exact hc', ?_⟩
  obtain ⟨left, hl⟩ : ∃ left, s.bodyBits - (s.dec.bitpos + j) = left + 1 := ⟨_, (Nat.succ_pred (by omega)).symm⟩
  rw [hwalk, hl, walkFrom_bit (s := s.atBit (s.dec.bitpos + j)) (by show _ < s.params.T; omega) hc',
    show s.bodyBits - (s.dec.bitpos + (j + 1)) = left by omega]
  rfl

/-- The first eight bits lead through internal nodes, for every parameter set: an alphabet has more than 256 symbols. -/
theorem walkReaches_of_le : ∀ j, j ≤ 8 → s.dec.bitpos + j ≤ s.bodyBits →
    WalkReaches s j (initialNode s.params j (s.bitsFrom s.dec.bitpos j))
  | 0, _, _ => walkReaches_zero hs
  | j + 1, hj, hleft => by
    have ha := params_alphabet s.params
    have hpow : 2 ^ (j + 1) ≤ 2 ^ 8 := Nat.pow_le_pow_right (by decide) hj
    refine walkReaches_succ hs ?_ hleft (walkReaches_of_le j (by omega) (by omega))
    simp only [initialNode]
    omega

/-- The walk ends at node `c` with symbol `c`. -/
theorem walk_eq_leaf {j c : Nat} (hc : c < s.params.nChar) (h : WalkReaches s j c) :
    s.walk = .leaf c (s.atBit (s.dec.bitpos + j)) := by
  obtain ⟨n, hn, hwalk⟩ := h
  rw [hs, startHuff_sonAt, if_pos hc] at hn
  cases hn
  have hend := walkFrom_leaf_eq (left := s.bodyBits - (s.dec.bitpos + j)) (n := c + s.params.T)
    (s := s.atBit (s.dec.bitpos + j)) (Nat.le_add_left _ _)
  exact hwalk.trans (hend.trans (congrArg (WalkResult.leaf · _) (Nat.add_sub_cancel _ _)))

/-- The codes of 8 bits, of the symbols from 2N_CHAR − 512 on. -/
theorem walk_initial_eight {c : Nat} (hc : c < s.params.nChar) (hleft : s.dec.bitpos + 8 ≤ s.bodyBits)
    (hv : 2 * s.params.nChar + s.bitsFrom s.dec.bitpos 8 = c + 512) :
    s.walk = .leaf c (s.atBit (s.dec.bitpos + 8)) := by
  have hnode : initialNode s.params 8 (s.bitsFrom s.dec.bitpos 8) = c := by
    simp only [initialNode]
    omega
  exact walk_eq_leaf hs hc (hnode ▸ walkReaches_of_le hs 8 (le_refl 8) hleft)

/-- The codes of 9 bits, of the symbols below 2N_CHAR − 512. -/
theorem walk_initial_nine {c : Nat} (hc : c + 512 < 2 * s.params.nChar) (hleft : s.dec.bitpos + 9 ≤ s.bodyBits)
    (hv : 2 * s.params.nChar + s.bitsFrom s.dec.bitpos 9 = c + 1024) :
    s.walk = .leaf c (s.atBit (s.dec.bitpos + 9)) := by
  have ha := params_alphabet s.params
  have hbit := Bool.toNat_lt (s.bodyBit (s.dec.bitpos + 8))
  have hlast : s.bitsFrom s.dec.bitpos 9 = 2 * s.bitsFrom s.dec.bitpos 8 + (s.bodyBit (s.dec.bitpos + 8)).toNat := rfl
  have hinternal : s.params.nChar ≤ initialNode s.params 8 (s.bitsFrom s.dec.bitpos 8) := by
    simp only [initialNode]
    omega
  have hnode : initialNode s.params 9 (s.bitsFrom s.dec.bitpos 9) = c := by
    simp only [initialNode]
    omega
  have h8 := walkReaches_of_le hs 8 (le_refl 8) (by omega)
  exact walk_eq_leaf hs (by omega) (hnode ▸ walkReaches_succ hs hinternal hleft h8)

end

/-- Settles O38: the default alphabet has 314 symbols. -/
theorem initialSymbolCodes : Obligations.InitialSymbolCodes := by
  intro s c hp hs
  have hn : s.params.nChar = 314 := by rw [hp]; rfl
  exact ⟨fun hc hleft hbits => walk_initial_nine hs (by omega) hleft (by omega),
    fun hlo hhi hleft hbits => walk_initial_eight hs (by omega) hleft (by omega)⟩

end Sys2Proof.Machine
end

section
/-!
The update of a tree (42_lzhuf.md R188, R190). The tables are read as total functions of the index, and a tree in the middle
of an update as a tree with one node short of its children's sum; each turn of the loop moves that node one level up.
-/

namespace Sys2Proof.Machine

open Sys2Proof.Config (Params)

/-! ### The tables by their entries -/

theorem getElem?_eq_entry {l : List Half} {k : Nat} (hk : k < l.length) : l[k]?.map BitVec.toNat = some (entry l k) := by
  simp [entry, hk]

theorem entry_eq_of_getElem? {l : List Half} {k v : Nat} (h : l[k]?.map BitVec.toNat = some v) :
    k < l.length ∧ entry l k = v := by
  obtain ⟨x, hx, rfl⟩ := Option.map_eq_some_iff.1 h
  exact ⟨(List.getElem?_eq_some_iff.1 hx).1, by simp [entry, List.getD_eq_getElem?_getD, hx]⟩

theorem entry_set {l : List Half} {k v : Nat} (hk : k < l.length) (hv : v < 2 ^ 16) (j : Nat) :
    entry (l.set k (BitVec.ofNat 16 v)) j = if j = k then v else entry l j := by
  simp only [entry, List.getD_eq_getElem?_getD, List.getElem?_set]
  split_ifs with h1 h2 h3
  · simpa using hv
  · exact absurd h1.symm h2
  · exact absurd h3.symm h1
  · rfl

section
variable {h : Huff} {k : Nat}

theorem Huff.freqAt_eq (hk : k < h.freq.length) : h.freqAt k = some (entry h.freq k) := getElem?_eq_entry hk

theorem Huff.sonAt_eq (hk : k < h.son.length) : h.sonAt k = some (entry h.son k) := getElem?_eq_entry hk

theorem Huff.prntAt_eq (hk : k < h.prnt.length) : h.prntAt k = some (entry h.prnt k) := getElem?_eq_entry hk

theorem Huff.setFreq_eq (hk : k < h.freq.length) (v : Nat) :
    h.setFreq k v = some { h with freq := h.freq.set k (BitVec.ofNat 16 v) } := if_pos hk

theorem Huff.setSon_eq (hk : k < h.son.length) (v : Nat) :
    h.setSon k v = some { h with son := h.son.set k (BitVec.ofNat 16 v) } := if_pos hk

theorem Huff.setPrnt_eq (hk : k < h.prnt.length) (v : Nat) :
    h.setPrnt k v = some { h with prnt := h.prnt.set k (BitVec.ofNat 16 v) } := if_pos hk

end

/-! ### What a son entry stands for -/

/-- The prnt entries that a node with the son entry `c` owns: its two children's, or its symbol's where `c` is not below
`t`. -/
abbrev Spans (t c x : Nat) : Prop := x = c ∨ (c < t ∧ x = c + 1)

/-- Setting the parents of a subtree writes the entries that its son entry stands for. -/
theorem Huff.setParent_spec {t : Nat} {h : Huff} {c v : Nat} (hc : ∀ x, Spans t c x → x < h.prnt.length)
    (hv : v < 2 ^ 16) :
    ∃ P : List Half, h.setParent t c v = some { h with prnt := P } ∧ P.length = h.prnt.length ∧
      (∀ x, Spans t c x → entry P x = v) ∧ ∀ x, ¬ Spans t c x → entry P x = entry h.prnt x := by
  have h0 : c < h.prnt.length := hc c (.inl rfl)
  unfold Huff.setParent
  rw [Huff.setPrnt_eq h0]
  by_cases ht : c < t
  · have h1 : c + 1 < h.prnt.length := hc (c + 1) (.inr ⟨ht, rfl⟩)
    refine ⟨(h.prnt.set c (BitVec.ofNat 16 v)).set (c + 1) (BitVec.ofNat 16 v), ?_, by simp, ?_, ?_⟩
    · simp only [if_pos ht]
      exact Huff.setPrnt_eq (by simpa using h1) v
    · rintro x (rfl | ⟨_, rfl⟩)
      · rw [entry_set (by simpa using h1) hv, if_neg (by omega), entry_set h0 hv, if_pos rfl]
      · rw [entry_set (by simpa using h1) hv, if_pos rfl]
    · intro x hx
      have hx1 : x ≠ c := fun e => hx (.inl e)
      have hx2 : x ≠ c + 1 := fun e => hx (.inr ⟨ht, e⟩)
      rw [entry_set (by simpa using h1) hv, if_neg hx2, entry_set h0 hv, if_neg hx1]
  · refine ⟨h.prnt.set c (BitVec.ofNat 16 v), by simp only [if_neg ht], by simp, ?_, ?_⟩
    · rintro x (rfl | ⟨h1, _⟩)
      · rw [entry_set h0 hv, if_pos rfl]
      · exact absurd h1 ht
    · intro x hx
      rw [entry_set h0 hv, if_neg fun e => hx (.inl e)]

/-! ### Trees, up to a shortage at each node -/

/-- The tables hold a tree in the sense of R190, but that node `q` is short of its children's sum by `short q`, and
nothing bounds the root. -/
structure TreeUpTo (p : Params) (h : Huff) (short : Nat → Nat) : Prop where
  sized : h.Sized p
  rising : ∀ k, k + 1 < p.T → entry h.freq k ≤ entry h.freq (k + 1)
  positive : ∀ k, k < p.T → 1 ≤ entry h.freq k
  sentinel : entry h.freq p.T = 0xFFFF
  below : ∀ q, q < p.T → entry h.son q < p.T → entry h.son q + 1 < q
  range : ∀ q, q < p.T → entry h.son q < p.T + p.nChar
  sum : ∀ q, q < p.T → entry h.son q < p.T →
    entry h.freq (entry h.son q) + entry h.freq (entry h.son q + 1) = entry h.freq q + short q
  parent_of_child : ∀ q x, q < p.T → Spans p.T (entry h.son q) x → entry h.prnt x = q
  child : ∀ x, x < p.T + p.nChar → x ≠ p.root → ∃ q, q < p.T ∧ Spans p.T (entry h.son q) x
  root_parent : entry h.prnt p.root = 0

/-- No node is short. -/
def noShortage : Nat → Nat := fun _ => 0

/-- Node `n` is short by the one occurrence that its subtree has counted and it has not. -/
def shortAt (n : Nat) : Nat → Nat := fun q => if q = n then 1 else 0

theorem TreeSound.treeUpTo {p : Params} {h : Huff} (t : TreeSound p h) : TreeUpTo p h noShortage := by
  have ha := params_alphabet p
  have hf {k : Nat} (hk : k < p.T + 1) : h.freqAt k = some (entry h.freq k) :=
    Huff.freqAt_eq (by rw [t.freq_length]; exact hk)
  have hs {k : Nat} (hk : k < p.T) : h.sonAt k = some (entry h.son k) := Huff.sonAt_eq (by rw [t.son_length]; exact hk)
  have hp {x q : Nat} (e : h.prntAt x = some q) : entry h.prnt x = q := (entry_eq_of_getElem? e).2
  have inside {q : Nat} (hq : q < p.T) (hc : entry h.son q < p.T) := t.internal q _ (hs hq) hc
  refine
    { sized := ⟨t.freq_length, t.son_length, t.prnt_length⟩
      rising := fun k hk => t.rising k _ _ hk (hf (by omega)) (hf (by omega))
      positive := fun k hk => t.positive k _ hk (hf (by omega))
      sentinel := (entry_eq_of_getElem? t.sentinel).2
      below := fun q hq hc => (inside hq hc).1
      range := ?range, sum := ?sum, parent_of_child := ?parent, child := ?child
      root_parent := hp t.root_parent }
  case range =>
    intro q hq
    by_cases hc : entry h.son q < p.T
    · omega
    · exact (t.leaf q _ (hs hq) (by omega)).1
  case sum =>
    intro q hq hc
    obtain ⟨_, _, _, hsum⟩ := inside hq hc
    exact (entry_eq_of_getElem? (hsum _ _ (hf (by omega)) (hf (by omega)))).2.symm
  case parent =>
    intro q x hq hx
    by_cases hc : entry h.son q < p.T
    · obtain ⟨_, h1, h2, _⟩ := inside hq hc
      rcases hx with rfl | ⟨_, rfl⟩
      · exact hp h1
      · exact hp h2
    · rcases hx with rfl | ⟨hc', _⟩
      · exact hp (t.leaf q _ (hs hq) (by omega)).2
      · exact absurd hc' hc
  case child =>
    intro x hx hne
    by_cases hxT : x < p.T
    · obtain ⟨q, c, _, hc, hxc⟩ := t.parent x (by omega)
      obtain ⟨hq, rfl⟩ := entry_eq_of_getElem? hc
      rw [t.son_length] at hq
      exact ⟨q, hq, hxc.imp id fun e => ⟨by omega, e⟩⟩
    · obtain ⟨q, _, hq⟩ := t.symbol (x - p.T) (by omega)
      obtain ⟨hlt, e⟩ := entry_eq_of_getElem? hq
      rw [t.son_length] at hlt
      exact ⟨q, hlt, .inl (by omega)⟩

theorem TreeSound.root_le {p : Params} {h : Huff} (t : TreeSound p h) : entry h.freq p.root ≤ Config.MAX_FREQ := by
  have ha := params_alphabet p
  exact t.root_bound _ (Huff.freqAt_eq (by rw [t.freq_length]; omega))

/-- A tree in which no node is short, its root being at most MAX_FREQ, is a tree of R190. -/
theorem TreeUpTo.treeSound {p : Params} {h : Huff} (t : TreeUpTo p h noShortage)
    (hroot : entry h.freq p.root ≤ Config.MAX_FREQ) : TreeSound p h := by
  have ha := params_alphabet p
  obtain ⟨hfl, hsl, hpl⟩ := t.sized
  have hf {k f : Nat} (e : h.freqAt k = some f) : entry h.freq k = f := (entry_eq_of_getElem? e).2
  have hs {q c : Nat} (e : h.sonAt q = some c) : q < p.T ∧ entry h.son q = c := hsl ▸ entry_eq_of_getElem? e
  have prnt {q x : Nat} (hq : q < p.T) (hx : x < p.T + p.nChar) (hspan : Spans p.T (entry h.son q) x) :
      h.prntAt x = some q := by rw [Huff.prntAt_eq (hpl ▸ hx), t.parent_of_child q x hq hspan]
  refine
    { freq_length := hfl, son_length := hsl, prnt_length := hpl
      rising := fun k f g hk e1 e2 => hf e1 ▸ hf e2 ▸ t.rising k hk
      positive := fun k f hk e => hf e ▸ t.positive k hk
      sentinel := by rw [Huff.freqAt_eq (by omega), t.sentinel]
      root_bound := fun f e => hf e ▸ hroot
      internal := ?internal, leaf := ?leaf, symbol := ?symbol, parent := ?parent
      root_parent := by rw [Huff.prntAt_eq (by omega), t.root_parent] }
  case internal =>
    intro q c e hc
    obtain ⟨hq, rfl⟩ := hs e
    have hlt := t.below q hq hc
    refine ⟨hlt, prnt hq (by omega) (.inl rfl), prnt hq (by omega) (.inr ⟨hc, rfl⟩), fun f g e1 e2 => ?_⟩
    rw [Huff.freqAt_eq (by omega), ← hf e1, ← hf e2]
    exact congrArg some (t.sum q hq hc).symm
  case leaf =>
    intro q c e hc
    obtain ⟨hq, rfl⟩ := hs e
    exact ⟨t.range q hq, prnt hq (t.range q hq) (.inl rfl)⟩
  case symbol =>
    intro c hc
    obtain ⟨q, hq, hspan⟩ := t.child (p.T + c) (by omega) (by omega)
    refine ⟨q, prnt hq (by omega) hspan, ?_⟩
    rw [Huff.sonAt_eq (by omega)]
    rcases hspan with e | ⟨hlt, e⟩
    · rw [e]
    · have := t.below q hq hlt
      omega
  case parent =>
    intro k hk
    obtain ⟨q, hq, hspan⟩ := t.child k (by omega) (by omega)
    exact ⟨q, entry h.son q, prnt hq (by omega) hspan, Huff.sonAt_eq (by omega), hspan.imp id And.right⟩

/-! ### The last node of a frequency -/

/-- The search upwards ends before the sentinel, at the last node below `k`. -/
theorem Huff.lastBelow_spec {p : Params} {h : Huff} {k : Nat} (hlen : h.freq.length = p.T + 1)
    (hk : k ≤ entry h.freq p.T) : ∀ {fuel l : Nat}, l < p.T → p.T ≤ l + fuel →
      ∃ m, h.lastBelow k fuel l = some m ∧ l ≤ m ∧ m < p.T ∧ (∀ j, l < j → j ≤ m → entry h.freq j < k) ∧
        k ≤ entry h.freq (m + 1)
  | 0, l, hl, hfuel => by omega
  | fuel + 1, l, hl, hfuel => by
    simp only [Huff.lastBelow, Huff.freqAt_eq (show l + 1 < h.freq.length by omega)]
    split
    · next hlt =>
      have hne : l + 1 ≠ p.T := by
        intro e
        rw [e] at hlt
        omega
      obtain ⟨m, e, hlm, hm, hbelow, habove⟩ := Huff.lastBelow_spec hlen hk (fuel := fuel) (l := l + 1)
        (by omega) (by omega)
      refine ⟨m, e, by omega, hm, fun j h1 h2 => ?_, habove⟩
      rcases Nat.lt_or_eq_of_le (Nat.succ_le_of_lt h1) with h3 | rfl
      · exact hbelow j h3 h2
      · exact hlt
    · next hge => exact ⟨l, rfl, le_refl l, hl, fun j h1 h2 => by omega, by omega⟩

/-! ### Two nodes change places -/

theorem entry_lt (l : List Half) (k : Nat) : entry l k < 2 ^ 16 := BitVec.isLt _

theorem Huff.swap_spec {p : Params} {h : Huff} {n l k : Nat} (hs : h.Sized p) (hn : n < p.T) (hl : l < p.T)
    (hk : k < 2 ^ 16) (hin : ∀ q x, q < p.T → Spans p.T (entry h.son q) x → x < p.T + p.nChar) :
    ∃ h', h.swap p.T n l k = some h' ∧
      (∀ x, entry h'.freq x = if x = l then k else if x = n then entry h.freq l else entry h.freq x) ∧
      (∀ q, entry h'.son q = entry h.son (Equiv.swap n l q)) ∧
      (∀ x, Spans p.T (entry h.son l) x → entry h'.prnt x = n) ∧
      (∀ x, ¬ Spans p.T (entry h.son l) x → Spans p.T (entry h.son n) x → entry h'.prnt x = l) ∧
      ∀ x, ¬ Spans p.T (entry h.son l) x → ¬ Spans p.T (entry h.son n) x → entry h'.prnt x = entry h.prnt x := by
  obtain ⟨hfl, hsl, hpl⟩ := hs
  have ha := params_alphabet p
  obtain ⟨P, eP, hP, hP1, hP2⟩ := Huff.setParent_spec (t := p.T)
    (h := { h with freq := (h.freq.set n (BitVec.ofNat 16 (entry h.freq l))).set l (BitVec.ofNat 16 k) })
    (c := entry h.son n) (v := l) (fun x hx => hpl ▸ hin n x hn hx) (by omega)
  obtain ⟨P', eP', hP', hP1', hP2'⟩ := Huff.setParent_spec (t := p.T)
    (h := { freq := (h.freq.set n (BitVec.ofNat 16 (entry h.freq l))).set l (BitVec.ofNat 16 k)
            son := h.son.set l (BitVec.ofNat 16 (entry h.son n)), prnt := P })
    (c := entry h.son l) (v := n) (fun x hx => by rw [hP]; exact hpl ▸ hin l x hl hx) (by omega)
  refine
    ⟨{ freq := (h.freq.set n (BitVec.ofNat 16 (entry h.freq l))).set l (BitVec.ofNat 16 k)
       son := (h.son.set l (BitVec.ofNat 16 (entry h.son n))).set n (BitVec.ofNat 16 (entry h.son l)), prnt := P' },
      ?run, ?freq, ?son, hP1', ?left, ?rest⟩
  case run =>
    have hln : n < h.freq.length := by omega
    have hll : l < h.freq.length := by omega
    simp only [Huff.swap, Huff.freqAt_eq hll, Huff.setFreq_eq hln, Option.bind_eq_bind, Option.bind_some]
    rw [Huff.setFreq_eq (by simpa using hll)]
    simp only [Option.bind_some]
    rw [Huff.sonAt_eq (by simpa [hsl] using hn)]
    simp only [Option.bind_some, eP]
    rw [Huff.sonAt_eq (by simpa [hsl] using hl)]
    simp only [Option.bind_some]
    rw [Huff.setSon_eq (by simpa [hsl] using hl)]
    simp only [Option.bind_some, eP']
    exact Huff.setSon_eq (by simpa [hsl] using hn) _
  case freq =>
    intro x
    rw [entry_set (by simp; omega) hk, entry_set (by omega) (entry_lt _ _)]
  case son =>
    intro q
    rw [entry_set (by simp; omega) (entry_lt _ _), entry_set (by omega) (entry_lt _ _), Equiv.swap_apply_def]
    split_ifs <;> rfl
  case left => exact fun x h1 h2 => (hP2' x h1).trans (hP1 x h2)
  case rest => exact fun x h1 h2 => (hP2' x h1).trans (hP2 x h2)

/-! ### One turn of the loop -/

/-- From `h` to `h'` the nodes `n` and `l` have changed places, and node `l` has been counted once more. -/
structure CountedAt (p : Params) (h h' : Huff) (n l : Nat) : Prop where
  sized : h'.Sized p
  freq : ∀ k, entry h'.freq k = entry h.freq k + if k = l then 1 else 0
  son : ∀ q, entry h'.son q = entry h.son (Equiv.swap n l q)
  parent : ∀ q x, q < p.T → Spans p.T (entry h.son q) x → entry h'.prnt x = Equiv.swap n l q
  root_parent : entry h'.prnt p.root = entry h.prnt p.root

/-- A node counted once more counts once in the sum of the two children, where it is one of them. -/
theorem count_spans {p : Params} {c l : Nat} (hc : c < p.T) :
    (if Spans p.T c l then 1 else 0) = (if c = l then 1 else 0) + if c + 1 = l then 1 else 0 := by
  simp only [Spans, hc, true_and]
  split_ifs <;> omega

section
variable {p : Params} {h : Huff} {short : Nat → Nat}

theorem TreeUpTo.spans_lt (t : TreeUpTo p h short) {q x : Nat} (hq : q < p.T) (hx : Spans p.T (entry h.son q) x) :
    x < p.T + p.nChar ∧ (x < p.T → x < q) := by
  have hr := t.range q hq
  rcases hx with rfl | ⟨hc, rfl⟩
  · exact ⟨hr, fun hc => by have := t.below q hq hc; omega⟩
  · have := t.below q hq hc
    omega

theorem TreeUpTo.freq_mono (t : TreeUpTo p h short) {j k : Nat} (hjk : j ≤ k) (hk : k < p.T) :
    entry h.freq j ≤ entry h.freq k := by
  induction k, hjk using Nat.le_induction with
  | base => exact le_refl _
  | succ k hjk ih => exact Nat.le_trans (ih (by omega)) (t.rising k hk)

/-- The root is no node's child. -/
theorem TreeUpTo.not_spans_root (t : TreeUpTo p h short) {q : Nat} (hq : q < p.T) :
    ¬ Spans p.T (entry h.son q) p.root := by
  have ha := params_alphabet p
  intro hx
  have := (t.spans_lt hq hx).2 (by omega)
  omega

/-- The parent of a node but the root stands above it. -/
theorem TreeUpTo.parent_spec (t : TreeUpTo p h short) {k : Nat} (hk : k < p.root) :
    k < entry h.prnt k ∧ entry h.prnt k < p.T ∧ Spans p.T (entry h.son (entry h.prnt k)) k := by
  have ha := params_alphabet p
  obtain ⟨q, hq, hx⟩ := t.child k (by omega) (by omega)
  rw [t.parent_of_child q k hq hx]
  exact ⟨(t.spans_lt hq hx).2 (by omega), hq, hx⟩

/-- Node `n` counted once more, where it stands. -/
def Huff.counted (h : Huff) (n : Nat) : Huff :=
  { h with freq := h.freq.set n (BitVec.ofNat 16 (entry h.freq n + 1)) }

theorem TreeUpTo.counted_freq (t : TreeUpTo p h short) {n : Nat} (hn : n < p.T) (hf : entry h.freq n < 0xFFFF)
    (k : Nat) : entry (h.counted n).freq k = if k = n then entry h.freq n + 1 else entry h.freq k := by
  obtain ⟨hfl, _⟩ := t.sized
  exact entry_set (by omega) (by omega) k

theorem TreeUpTo.counted_sized (t : TreeUpTo p h short) (n : Nat) : (h.counted n).Sized p := by
  obtain ⟨hfl, hsl, hpl⟩ := t.sized
  exact ⟨List.length_set.trans hfl, hsl, hpl⟩

/-- The node counted keeps its place where the next one is heavier. -/
theorem TreeUpTo.countedAt_self (t : TreeUpTo p h short) {n : Nat} (hn : n < p.T) (hf : entry h.freq n < 0xFFFF) :
    CountedAt p h (h.counted n) n n where
  sized := t.counted_sized n
  freq k := by
    rw [t.counted_freq hn hf]
    split_ifs with e
    · rw [e]
    · rfl
  son q := by
    rw [Equiv.swap_self]
    rfl
  parent q x hq hx := by
    rw [Equiv.swap_self]
    exact t.parent_of_child q x hq hx
  root_parent := rfl

/-- The node counted changes places with another one of its frequency. -/
theorem TreeUpTo.countedAt_swap (t : TreeUpTo p h short) {n l : Nat} (hn : n < p.T) (hf : entry h.freq n < 0xFFFF)
    (hl : l < p.T) (hne : l ≠ n) (heq : entry h.freq l = entry h.freq n) :
    ∃ h', (h.counted n).swap p.T n l (entry h.freq n + 1) = some h' ∧ CountedAt p h h' n l := by
  obtain ⟨h', e, hfreq, hson, hspan_l, hspan_n, hrest⟩ := Huff.swap_spec (l := l) (k := entry h.freq n + 1)
    (t.counted_sized n) hn hl (by omega) (fun q x hq hx => (t.spans_lt hq hx).1)
  refine ⟨h', e, (Huff.swap_sameSize e).sized (t.counted_sized n), fun k => ?_, hson, fun q x hq hx => ?_,
    hrest _ (t.not_spans_root hl) (t.not_spans_root hn)⟩
  · rw [hfreq, t.counted_freq hn hf, t.counted_freq hn hf, if_neg hne, heq]
    split_ifs with hkl hkn
    · rw [hkl, heq]
    · rw [hkn, Nat.add_zero]
    · rfl
  · have hup := t.parent_of_child q x hq hx
    have apart {r : Nat} (hr : r < p.T) (hqr : q ≠ r) : ¬ Spans p.T (entry h.son r) x :=
      fun hx' => hqr (hup.symm.trans (t.parent_of_child r x hr hx'))
    by_cases hql : q = l
    · subst hql
      rw [Equiv.swap_apply_right]
      exact hspan_l x hx
    · by_cases hqn : q = n
      · subst hqn
        rw [Equiv.swap_apply_left]
        exact hspan_n x (apart hl hql) hx
      · rw [Equiv.swap_apply_of_ne_of_ne hqn hql, hrest x (apart hl hql) (apart hn hqn)]
        exact hup

/-- The turn at node `n` counts the last node of its frequency, which then stands in its place. -/
theorem TreeUpTo.bump_spec (t : TreeUpTo p h short) {n : Nat} (hn : n < p.T) (hf : entry h.freq n < 0xFFFF) :
    ∃ h' l, h.bump p.T n = some (h', l) ∧ n ≤ l ∧ l < p.T ∧ entry h.freq l = entry h.freq n ∧
      entry h.freq n < entry h.freq (l + 1) ∧ CountedAt p h h' n l := by
  obtain ⟨hfl, _⟩ := t.sized
  obtain ⟨hfl', _⟩ := t.counted_sized n
  have hset : h.setFreq n (entry h.freq n + 1) = some (h.counted n) := Huff.setFreq_eq (by omega) _
  have hself : entry (h.counted n).freq n = entry h.freq n + 1 := (t.counted_freq hn hf n).trans (if_pos rfl)
  have hother {k : Nat} (hk : n < k) : entry (h.counted n).freq k = entry h.freq k :=
    (t.counted_freq hn hf k).trans (if_neg (by omega))
  simp only [Huff.bump, Option.bind_eq_bind, Option.bind_some, Huff.freqAt_eq (show n < h.freq.length by omega), hset,
    Huff.freqAt_eq (show n < (h.counted n).freq.length by omega), hself,
    Huff.freqAt_eq (show n + 1 < (h.counted n).freq.length by omega), hother (show n < n + 1 by omega)]
  split
  · next hnext =>
    have hn1 : n + 1 ≠ p.T := by
      intro e
      rw [e, t.sentinel] at hnext
      omega
    obtain ⟨l, el, hnl, hl, hbelow, habove⟩ := Huff.lastBelow_spec (k := entry h.freq n + 1) hfl'
      (by rw [hother hn, t.sentinel]; omega) (fuel := p.T) (l := n + 1) (by omega) (by omega)
    rw [hother (by omega)] at habove
    have hle : entry h.freq l ≤ entry h.freq n := by
      rcases Nat.lt_or_eq_of_le hnl with hlt | rfl
      · exact Nat.le_of_lt_succ (hother (by omega : n < l) ▸ hbelow l hlt (le_refl l))
      · exact Nat.le_of_lt_succ hnext
    have heq : entry h.freq l = entry h.freq n := Nat.le_antisymm hle (t.freq_mono (by omega) hl)
    obtain ⟨h', eh, c⟩ := t.countedAt_swap hn hf hl (by omega) heq
    exact ⟨h', l, by simp only [el, Option.bind_some, eh], by omega, hl, heq, habove, c⟩
  · next hnext => exact ⟨h.counted n, n, rfl, le_refl n, hn, rfl, by omega, t.countedAt_self hn hf⟩

end

/-! ### What a turn leaves of the tree -/

section
variable {p : Params} {h h' : Huff} {n l : Nat} (t : TreeUpTo p h (shortAt n)) (hn : n < p.T) (hl : l < p.T)

theorem swap_lt {m q : Nat} (hn : n < m) (hl : l < m) (hq : q < m) : Equiv.swap n l q < m := by
  rw [Equiv.swap_apply_def]
  split_ifs <;> assumption

include t hl

/-- The children of a node of the frequency of `n` stand below `n`: each is at least 1, and that frequency is their sum. -/
theorem TreeUpTo.children_below (hnl : n ≤ l) (heq : entry h.freq l = entry h.freq n) (hc : entry h.son l < p.T) :
    entry h.son l + 1 < n := by
  have hb := t.below l hl hc
  rcases Nat.eq_or_lt_of_le hnl with rfl | hlt
  · exact hb
  · have hsum := t.sum l hl hc
    have hpos := t.positive _ hc
    rw [shortAt, if_neg (by omega), heq] at hsum
    by_contra hge
    have := t.freq_mono (Nat.not_lt.1 hge) (by omega : entry h.son l + 1 < p.T)
    omega

include hn

/-- The count at `l` is missing at its parent, wherever that stands now. -/
theorem TreeUpTo.short_after (c : CountedAt p h h' n l) {q : Nat} (hq : q < p.T) :
    (if Spans p.T (entry h.son (Equiv.swap n l q)) l then 1 else 0) =
      (if l = p.root then noShortage else shortAt (entry h'.prnt l)) q := by
  have ha := params_alphabet p
  have hq' : Equiv.swap n l q < p.T := swap_lt hn hl hq
  split_ifs with hspan hroot hroot
  · exact absurd (hroot ▸ hspan) (t.not_spans_root hq')
  · rw [shortAt, c.parent _ l hq' hspan, Equiv.swap_apply_self, if_pos rfl]
  · rfl
  · obtain ⟨_, hup, hspan_up⟩ := t.parent_spec (k := l) (by omega)
    rw [shortAt, c.parent _ l hup hspan_up, if_neg]
    rintro rfl
    rw [Equiv.swap_apply_self] at hspan
    exact hspan hspan_up

/-- After a turn that has counted `l`, the shortage stands at the parent of `l`, or nowhere where `l` is the root. -/
theorem TreeUpTo.after_count (hnl : n ≤ l) (heq : entry h.freq l = entry h.freq n)
    (hlast : entry h.freq n < entry h.freq (l + 1)) (c : CountedAt p h h' n l) :
    TreeUpTo p h' (if l = p.root then noShortage else shortAt (entry h'.prnt l)) := by
  have ha := params_alphabet p
  have swap_freq (q : Nat) : entry h.freq (Equiv.swap n l q) = entry h.freq q := by
    rw [Equiv.swap_apply_def]
    split_ifs with h1 h2
    · rw [h1, heq]
    · rw [h2, heq]
    · rfl
  refine
    { sized := c.sized, rising := ?rising, positive := ?positive, sentinel := ?sentinel, below := ?below, range := ?range,
      sum := ?sum, parent_of_child := ?parent, child := ?child, root_parent := c.root_parent.trans t.root_parent }
  case rising =>
    intro k hk
    have := t.rising k hk
    rw [c.freq, c.freq]
    by_cases hkl : k = l
    · subst hkl
      simp only [if_true]
      omega
    · simp only [hkl, if_false]
      omega
  case positive =>
    intro k hk
    rw [c.freq]
    exact Nat.le_add_right_of_le (t.positive k hk)
  case sentinel => rw [c.freq, if_neg (by omega), t.sentinel]
  case below =>
    intro q hq hc
    rw [c.son, Equiv.swap_apply_def] at hc ⊢
    split_ifs at hc ⊢ with h1 h2
    · exact h1 ▸ t.children_below hl hnl heq hc
    · have := t.below n hn hc
      omega
    · exact t.below q hq hc
  case range =>
    intro q hq
    rw [c.son]
    exact t.range _ (swap_lt hn hl hq)
  case sum =>
    intro q hq hc
    rw [c.son] at hc ⊢
    have hsum := t.sum _ (swap_lt hn hl hq) hc
    have hshort : shortAt n (Equiv.swap n l q) = if q = l then 1 else 0 := by
      simp only [shortAt, Equiv.swap_apply_eq_iff, Equiv.swap_apply_left]
    have hcount := count_spans (l := l) hc
    rw [t.short_after hn hl c hq] at hcount
    rw [swap_freq, hshort] at hsum
    rw [c.freq, c.freq, c.freq]
    omega
  case parent =>
    intro q x hq hx
    rw [c.son] at hx
    rw [c.parent _ x (swap_lt hn hl hq) hx, Equiv.swap_apply_self]
  case child =>
    intro x hx hne
    obtain ⟨q, hq, hspan⟩ := t.child x hx hne
    exact ⟨Equiv.swap n l q, swap_lt hn hl hq, by rw [c.son, Equiv.swap_apply_self]; exact hspan⟩

end

/-! ### The loop and the update -/

/-- From a tree short at `n` alone, and whose root is below MAX_FREQ, the loop ends at the root and leaves a tree. -/
theorem TreeUpTo.climb_spec {p : Params} : ∀ {fuel n : Nat} {h : Huff}, TreeUpTo p h (shortAt n) → n < p.T →
    p.T ≤ n + fuel → entry h.freq p.root < Config.MAX_FREQ → ∃ h', Huff.climb p.T fuel h n = some h' ∧ TreeSound p h'
  | 0, n, h, _, hn, hfuel, _ => by omega
  | fuel + 1, n, h, t, hn, hfuel, hroot => by
    have ha := params_alphabet p
    have hmax : Config.MAX_FREQ = 0x8000 := rfl
    have hle : entry h.freq n ≤ entry h.freq p.root := t.freq_mono (by omega) (by omega)
    obtain ⟨h1, l, e, hnl, hl, heq, hlast, c⟩ := t.bump_spec hn (by omega)
    have t1 := t.after_count hn hl hnl heq hlast c
    have hup : h1.prntAt l = some (entry h1.prnt l) := Huff.prntAt_eq (by rw [c.sized.2.2]; omega)
    simp only [Huff.climb, e, hup]
    by_cases hlr : l = p.root
    · rw [if_pos hlr] at t1
      have h0 : entry h1.prnt l = 0 := hlr ▸ t1.root_parent
      have hroot1 : entry h1.freq p.root ≤ Config.MAX_FREQ := by
        rw [c.freq]
        split_ifs <;> omega
      rw [h0]
      exact ⟨h1, rfl, t1.treeSound hroot1⟩
    · rw [if_neg hlr] at t1
      obtain ⟨hlt, hT, _⟩ := t1.parent_spec (k := l) (by omega)
      have hroot1 : entry h1.freq p.root < Config.MAX_FREQ := by
        rw [c.freq, if_neg (Ne.symm hlr)]
        exact hroot
      obtain ⟨h', e', t'⟩ := TreeUpTo.climb_spec (fuel := fuel) t1 hT (by omega) hroot1
      refine ⟨h', ?_, t'⟩
      split
      · next h0 => cases h0
      · next h0 =>
        rw [Option.some.injEq] at h0
        omega
      · next h0 => cases h0; exact e'

/-- Before its leaf is counted a tree is short at the leaf: a leaf has no children to be short of. -/
theorem TreeUpTo.short_leaf {p : Params} {h : Huff} (t : TreeUpTo p h noShortage) {n : Nat}
    (hleaf : p.T ≤ entry h.son n) : TreeUpTo p h (shortAt n) :=
  { t with
    sum := fun q hq hc => by
      have hne : q ≠ n := by rintro rfl; omega
      rw [t.sum q hq hc, shortAt, if_neg hne, noShortage] }

/-- In a tree whose root is below MAX_FREQ the loop starts at a symbol's leaf and leaves a tree (R188, R190). -/
theorem TreeSound.climb_from_leaf {p : Params} {h : Huff} {c : Nat} (ts : TreeSound p h) (hc : c < p.nChar)
    (hlt : entry h.freq p.root < Config.MAX_FREQ) :
    ∃ n h', h.prntAt (c + p.T) = some n ∧ Huff.climb p.T p.T h n = some h' ∧ TreeSound p h' := by
  have t := ts.treeUpTo
  obtain ⟨n, hup, hson⟩ := ts.symbol c hc
  obtain ⟨hn, e⟩ := entry_eq_of_getElem? hson
  rw [ts.son_length] at hn
  obtain ⟨h', eh, th⟩ := (t.short_leaf (by omega : p.T ≤ entry h.son n)).climb_spec hn (Nat.le_add_left _ _) hlt
  exact ⟨n, h', Nat.add_comm c p.T ▸ hup, eh, th⟩

end Sys2Proof.Machine
end

section
/-!
Halving a tree (42_lzhuf.md R187, R190): the halved leaves, the nodes built over them, and their parents. The result is a
tree whose root is below MAX_FREQ.
-/

namespace Sys2Proof.Machine

open Sys2Proof.Config (Params)

/-! ### The leaves of a tree -/

/-- The leaf nodes in node order. -/
def leafNodes (p : Params) (h : Huff) : List Nat := (List.range p.T).filter (fun k => p.T ≤ entry h.son k)

theorem mem_leafNodes {p : Params} {h : Huff} {k : Nat} :
    k ∈ leafNodes p h ↔ k < p.T ∧ p.T ≤ entry h.son k := by
  simp [leafNodes]

theorem leafNodes_nodup (p : Params) (h : Huff) : (leafNodes p h).Nodup := List.nodup_range.filter _

section
variable {p : Params} {h : Huff} (t : TreeUpTo p h noShortage)
include t

/-- The leaves hold every symbol once. -/
theorem leafNodes_sons : ((leafNodes p h).map (entry h.son)).Perm (List.range' p.T p.nChar) := by
  have ha := params_alphabet p
  have hinj : ∀ j ∈ leafNodes p h, ∀ k ∈ leafNodes p h, entry h.son j = entry h.son k → j = k := by
    intro j hj k hk e
    rw [mem_leafNodes] at hj hk
    rw [← t.parent_of_child j _ hj.1 (.inl rfl), e, t.parent_of_child k _ hk.1 (.inl rfl)]
  refine (List.perm_ext_iff_of_nodup ((leafNodes_nodup p h).map_on hinj) List.nodup_range').2 fun c => ?_
  simp only [List.mem_map, mem_leafNodes, List.mem_range'_1]
  constructor
  · rintro ⟨k, ⟨hk, hleaf⟩, rfl⟩
    exact ⟨hleaf, t.range k hk⟩
  · rintro ⟨hlo, hhi⟩
    obtain ⟨q, hq, e | ⟨hc, e⟩⟩ := t.child c hhi (by omega)
    · exact ⟨q, ⟨hq, e ▸ hlo⟩, e.symm⟩
    · have := t.below q hq hc
      omega

theorem leafNodes_length : (leafNodes p h).length = p.nChar := by
  simpa using (leafNodes_sons t).length_eq

/-- The leaves' frequencies add up to the root's: each node but the root counts in its parent's sum. -/
theorem leafNodes_total : ((leafNodes p h).map (entry h.freq)).sum = entry h.freq p.root := by
  have ha := params_alphabet p
  have hroot : p.T = p.root + 1 := by omega
  set F := entry h.freq
  set inner := (Finset.range p.T).filter (fun k => ¬ p.T ≤ entry h.son k) with hinner
  have mem_inner {q : Nat} : q ∈ inner ↔ q < p.T ∧ entry h.son q < p.T := by simp [hinner]
  have hleaves : ((leafNodes p h).map F).sum = ∑ k ∈ (Finset.range p.T).filter (fun k => p.T ≤ entry h.son k), F k := by
    rw [← List.sum_toFinset F (leafNodes_nodup p h)]
    congr 1
    ext k
    simp [mem_leafNodes]
  have hmaps : ∀ x ∈ Finset.range p.root, entry h.prnt x ∈ inner := by
    intro x hx
    obtain ⟨hlt, hup, hspan⟩ := t.parent_spec (Finset.mem_range.1 hx)
    rw [mem_inner]
    rcases hspan with e | ⟨hc, _⟩
    · exact ⟨hup, by omega⟩
    · exact ⟨hup, hc⟩
  have hfiber : ∀ q ∈ inner, ∑ x ∈ (Finset.range p.root).filter (fun x => entry h.prnt x = q), F x = F q := by
    intro q hq
    obtain ⟨hq, hc⟩ := mem_inner.1 hq
    have hb := t.below q hq hc
    have hpair : (Finset.range p.root).filter (fun x => entry h.prnt x = q) = {entry h.son q, entry h.son q + 1} := by
      ext x
      simp only [Finset.mem_filter, Finset.mem_range, Finset.mem_insert, Finset.mem_singleton]
      constructor
      · rintro ⟨hx, rfl⟩
        obtain ⟨_, _, e | ⟨_, e⟩⟩ := t.parent_spec hx
        · exact .inl e
        · exact .inr e
      · rintro (rfl | rfl)
        · exact ⟨by omega, t.parent_of_child q _ hq (.inl rfl)⟩
        · exact ⟨by omega, t.parent_of_child q _ hq (.inr ⟨hc, rfl⟩)⟩
    rw [hpair, Finset.sum_pair (by omega)]
    exact t.sum q hq hc
  have hinner_sum : ∑ q ∈ inner, F q = ∑ x ∈ Finset.range p.root, F x := by
    rw [← Finset.sum_fiberwise_of_maps_to hmaps]
    exact (Finset.sum_congr rfl hfiber).symm
  have hsplit := Finset.sum_filter_add_sum_filter_not (Finset.range p.T) (fun k => p.T ≤ entry h.son k) F
  have hall : ∑ x ∈ Finset.range p.T, F x = ∑ x ∈ Finset.range p.root, F x + F p.root := by
    rw [hroot, Finset.sum_range_succ]
  rw [← hinner, hinner_sum] at hsplit
  omega

end

/-! ### Step 1: the halved leaves -/

/-- A leaf's node after halving. -/
def halvedLeaf (h : Huff) (k : Nat) : HuffNode := (BitVec.ofNat 16 ((entry h.freq k + 1) / 2), h.son.getD k 0)

theorem halvedLeaf_freq (h : Huff) (k : Nat) : (halvedLeaf h k).1.toNat = (entry h.freq k + 1) / 2 := by
  have := entry_lt h.freq k
  exact Nat.mod_eq_of_lt (by omega)

/-- The nodes that step 1 leaves are the leaves, in their order. -/
theorem halvedLeaves_eq {p : Params} {h : Huff} (hs : h.Sized p) :
    halvedLeaves p.T ((h.freq.take p.T).zip h.son) = (leafNodes p h).map (halvedLeaf h) := by
  obtain ⟨hfl, hsl, _⟩ := hs
  have hnodes : (h.freq.take p.T).zip h.son = (List.range p.T).map (fun k => (h.freq.getD k 0, h.son.getD k 0)) := by
    apply List.ext_getElem
    · simp [hfl, hsl]
    · intro k h1 h2
      have hk : k < p.T := by simpa using h2
      have hkf : k < h.freq.length := by omega
      have hks : k < h.son.length := by omega
      simp [hkf, hks]
  rw [hnodes, halvedLeaves, List.filter_map, List.map_map, leafNodes]
  rfl

theorem sum_halves_le (l : List Nat) : 2 * (l.map (fun f => (f + 1) / 2)).sum ≤ l.sum + l.length := by
  induction l with
  | nil => simp
  | cons f l ih =>
    simp only [List.map_cons, List.sum_cons, List.length_cons]
    omega

/-! ### Step 2: the nodes built over the leaves -/

/-- The frequencies of a list of nodes. -/
def freqs (nodes : List HuffNode) : List Half := nodes.map Prod.fst

/-- The son entries of a list of nodes. -/
def sons (nodes : List HuffNode) : List Half := nodes.map Prod.snd

/-- An entry of a list into which a value has been put at index `k`. -/
theorem entry_insert {l : List Half} {k : Nat} (hk : k ≤ l.length) (x : Half) (j : Nat) :
    entry (l.take k ++ x :: l.drop k) j =
      if j < k then entry l j else if j = k then x.toNat else entry l (j - 1) := by
  have hlen : (l.take k).length = k := List.length_take_of_le hk
  simp only [entry, List.getD_eq_getElem?_getD]
  split_ifs with h1 h2
  · rw [List.getElem?_append_left (by omega), List.getElem?_take_of_lt h1]
  · subst h2
    rw [List.getElem?_append_right (by omega), hlen, Nat.sub_self]
    rfl
  · rw [List.getElem?_append_right (by omega), hlen, show j - k = (j - 1 - k) + 1 by omega, List.getElem?_cons_succ,
      List.getElem?_drop, show k + (j - 1 - k) = j - 1 by omega]

/-- The search downwards ends just after a node of a frequency of at most `f`, below nodes of higher frequencies. -/
theorem insertionPoint_spec (nodes : List HuffNode) (f : Half) : ∀ n, n ≤ nodes.length →
    insertionPoint nodes f n ≤ n ∧
      (∀ j, insertionPoint nodes f n ≤ j → j < n → f.toNat < entry (freqs nodes) j) ∧
      ∀ j, j + 1 = insertionPoint nodes f n → entry (freqs nodes) j ≤ f.toNat
  | 0, _ => by simp [insertionPoint]
  | n + 1, hn => by
    obtain ⟨hle, habove, hbelow⟩ := insertionPoint_spec nodes f n (by omega)
    have hlt : n < nodes.length := by omega
    have hentry : entry (freqs nodes) n = nodes[n].1.toNat := by simp [entry, freqs, hlt]
    simp only [insertionPoint, List.getElem?_eq_getElem hlt]
    split_ifs with hf
    · refine ⟨by omega, fun j h1 h2 => ?_, hbelow⟩
      by_cases hj : j = n
      · subst hj
        rw [hentry]
        exact hf
      · exact habove j h1 (by omega)
    · refine ⟨le_refl _, fun j h1 h2 => by omega, fun j hj => ?_⟩
      cases hj
      rw [hentry]
      omega

/-- The nodes after step 1 and the building of `m` internal nodes: over the leaves, in order of frequency, with each
internal node above its children and carrying their sum. The frequencies of the nodes that have no parent yet add up to
`sum`. -/
structure Rebuilt (p : Params) (sum m : Nat) (nodes : List HuffNode) : Prop where
  length : nodes.length = p.nChar + m
  sorted : ∀ i j, i ≤ j → j < nodes.length → entry (freqs nodes) i ≤ entry (freqs nodes) j
  positive : ∀ k, k < nodes.length → 1 ≤ entry (freqs nodes) k
  symbols : ((sons nodes).map BitVec.toNat).Perm (List.range' p.T p.nChar ++ (List.range m).map (2 * ·))
  inner : ∀ k, k < nodes.length → entry (sons nodes) k < p.T →
    entry (sons nodes) k + 1 < k ∧
      entry (freqs nodes) (entry (sons nodes) k) + entry (freqs nodes) (entry (sons nodes) k + 1) =
        entry (freqs nodes) k
  unpaired : total ((freqs nodes).drop (2 * m)) = sum

theorem entry_mem_map {l : List Half} {k : Nat} (hk : k < l.length) : entry l k ∈ l.map BitVec.toNat :=
  List.mem_map.2 ⟨l[k], List.getElem_mem hk, by simp [entry, hk]⟩

section
variable {p : Params} {sum m : Nat} {nodes : List HuffNode} (r : Rebuilt p sum m nodes)
include r

/-- A node's son entry is a symbol's, or the first of a pair that has been built over. -/
theorem Rebuilt.son_cases {k : Nat} (hk : k < nodes.length) :
    (p.T ≤ entry (sons nodes) k ∧ entry (sons nodes) k < p.T + p.nChar) ∨
      ∃ i, i < m ∧ entry (sons nodes) k = 2 * i := by
  have hmem := r.symbols.mem_iff.1 (entry_mem_map (l := sons nodes) (by simpa [sons] using hk))
  simp only [List.mem_append, List.mem_range'_1, List.mem_map, List.mem_range] at hmem
  rcases hmem with h | ⟨i, hi, e⟩
  · exact .inl h
  · exact .inr ⟨i, hi, e.symm⟩

end

/-- The nodes with one of frequency `f` and son entry `c` put in where the search of R187 says. -/
def insertNode (nodes : List HuffNode) (f : Half) (c : Nat) : List HuffNode :=
  nodes.take (insertionPoint nodes f nodes.length) ++
    (f, BitVec.ofNat 16 c) :: nodes.drop (insertionPoint nodes f nodes.length)

/-- From `nodes` to `nodes'` a node of frequency `f` and son entry `c` has come in at index `k`, above the nodes of at most
its frequency and below the others. -/
structure Inserted (nodes nodes' : List HuffNode) (k f c : Nat) : Prop where
  index_le : k ≤ nodes.length
  lower : ∀ j, j < k → entry (freqs nodes) j ≤ f
  higher : ∀ j, k ≤ j → j < nodes.length → f < entry (freqs nodes) j
  length : nodes'.length = nodes.length + 1
  freq_low : ∀ j, j < k → entry (freqs nodes') j = entry (freqs nodes) j
  freq_new : entry (freqs nodes') k = f
  freq_high : ∀ j, k < j → entry (freqs nodes') j = entry (freqs nodes) (j - 1)
  son_low : ∀ j, j < k → entry (sons nodes') j = entry (sons nodes) j
  son_new : entry (sons nodes') k = c
  son_high : ∀ j, k < j → entry (sons nodes') j = entry (sons nodes) (j - 1)

section
variable {nodes nodes' : List HuffNode}

theorem insertNode_spec (f : Half) {c : Nat} (hc : c < 2 ^ 16)
    (sorted : ∀ i j, i ≤ j → j < nodes.length → entry (freqs nodes) i ≤ entry (freqs nodes) j) :
    Inserted nodes (insertNode nodes f c) (insertionPoint nodes f nodes.length) f.toNat c := by
  obtain ⟨hk, higher, hbelow⟩ := insertionPoint_spec nodes f nodes.length (le_refl _)
  unfold insertNode
  generalize insertionPoint nodes f nodes.length = k at *
  have hfreq (j : Nat) : entry (freqs (nodes.take k ++ (f, BitVec.ofNat 16 c) :: nodes.drop k)) j =
      if j < k then entry (freqs nodes) j else if j = k then f.toNat else entry (freqs nodes) (j - 1) := by
    rw [← entry_insert (by simpa [freqs] using hk)]
    simp [freqs, List.map_take, List.map_drop]
  have hson (j : Nat) : entry (sons (nodes.take k ++ (f, BitVec.ofNat 16 c) :: nodes.drop k)) j =
      if j < k then entry (sons nodes) j else if j = k then c else entry (sons nodes) (j - 1) := by
    have hput := entry_insert (l := sons nodes) (by simpa [sons] using hk) (BitVec.ofNat 16 c) j
    rw [show (BitVec.ofNat 16 c).toNat = c from Nat.mod_eq_of_lt hc] at hput
    rw [← hput]
    simp [sons, List.map_take, List.map_drop]
  refine
    { index_le := hk, higher := higher
      lower := fun j hj => Nat.le_trans (sorted j (k - 1) (by omega) (by omega)) (hbelow (k - 1) (by omega))
      length := by simp only [List.length_append, List.length_cons, List.length_take, List.length_drop]; omega
      freq_low := fun j hj => (hfreq j).trans (if_pos hj)
      freq_new := by rw [hfreq, if_neg (lt_irrefl k), if_pos rfl]
      freq_high := fun j hj => by rw [hfreq, if_neg (by omega), if_neg (by omega)]
      son_low := fun j hj => (hson j).trans (if_pos hj)
      son_new := by rw [hson, if_neg (lt_irrefl k), if_pos rfl]
      son_high := fun j hj => by rw [hson, if_neg (by omega), if_neg (by omega)] }

variable {k f c : Nat} (ins : Inserted nodes nodes' k f c)
include ins

/-- The order of frequencies is kept. -/
theorem Inserted.sorted (sorted : ∀ i j, i ≤ j → j < nodes.length → entry (freqs nodes) i ≤ entry (freqs nodes) j) :
    ∀ i j, i ≤ j → j < nodes'.length → entry (freqs nodes') i ≤ entry (freqs nodes') j := by
  have hlen := ins.length
  have hk := ins.index_le
  intro i j hij hj
  rcases Nat.lt_trichotomy j k with hjk | rfl | hjk
  · rw [ins.freq_low i (by omega), ins.freq_low j hjk]
    exact sorted i j hij (by omega)
  · rw [ins.freq_new]
    rcases Nat.lt_or_eq_of_le hij with hik | rfl
    · rw [ins.freq_low i hik]
      exact ins.lower i hik
    · rw [ins.freq_new]
  · rw [ins.freq_high j hjk]
    rcases Nat.lt_trichotomy i k with hik | rfl | hik
    · rw [ins.freq_low i hik]
      exact sorted i (j - 1) (by omega) (by omega)
    · rw [ins.freq_new]
      exact (ins.higher (j - 1) (by omega) (by omega)).le
    · rw [ins.freq_high i hik]
      exact sorted (i - 1) (j - 1) (by omega) (by omega)

theorem Inserted.positive (positive : ∀ j, j < nodes.length → 1 ≤ entry (freqs nodes) j) (hf : 1 ≤ f) :
    ∀ j, j < nodes'.length → 1 ≤ entry (freqs nodes') j := by
  have hlen := ins.length
  have hk := ins.index_le
  intro j hj
  rcases Nat.lt_trichotomy j k with hjk | rfl | hjk
  · rw [ins.freq_low j hjk]
    exact positive j (by omega)
  · rw [ins.freq_new]
    exact hf
  · rw [ins.freq_high j hjk]
    exact positive (j - 1) (by omega)

end

section
variable {p : Params} {sum m : Nat} {nodes : List HuffNode} (r : Rebuilt p sum m nodes)
include r

/-- The two lowest nodes that have no parent, and the rest of the unpaired nodes' sum. -/
theorem Rebuilt.pair (hm : m + 1 < p.nChar) : ∃ a b, nodes[2 * m]? = some a ∧ nodes[2 * m + 1]? = some b ∧
    a.1.toNat = entry (freqs nodes) (2 * m) ∧ b.1.toNat = entry (freqs nodes) (2 * m + 1) ∧
      a.1.toNat + b.1.toNat + total ((freqs nodes).drop (2 * m + 2)) = sum := by
  have hlen := r.length
  have hfl : (freqs nodes).length = nodes.length := List.length_map _
  have h0 : 2 * m < nodes.length := by omega
  have h1 : 2 * m + 1 < nodes.length := by omega
  have hdrop : (freqs nodes).drop (2 * m) = nodes[2 * m].1 :: nodes[2 * m + 1].1 :: (freqs nodes).drop (2 * m + 2) := by
    rw [List.drop_eq_getElem_cons (by omega), List.drop_eq_getElem_cons (by omega)]
    simp [freqs]
  have hsum := r.unpaired
  simp only [hdrop, total, List.map_cons, List.sum_cons] at hsum
  exact ⟨nodes[2 * m], nodes[2 * m + 1], List.getElem?_eq_getElem h0, List.getElem?_eq_getElem h1,
    by simp [entry, freqs, h0], by simp [entry, freqs, h1], (Nat.add_assoc _ _ _).trans hsum⟩

/-- One internal node more: over the two lowest nodes that have no parent, above every node of at most its frequency. -/
theorem Rebuilt.succ (hm : m + 1 < p.nChar) (hsum : sum < 2 ^ 16) (n : Nat) :
    ∃ nodes', rebuildFrom (n + 1) (2 * m) nodes = rebuildFrom n (2 * (m + 1)) nodes' ∧ Rebuilt p sum (m + 1) nodes' := by
  have ha := params_alphabet p
  have hlen := r.length
  obtain ⟨a, b, ea, eb, hfa, hfb, htot⟩ := r.pair hm
  have hadd : (a.1 + b.1).toNat = a.1.toNat + b.1.toNat := by
    rw [BitVec.toNat_add]
    exact Nat.mod_eq_of_lt (by omega)
  have ins := insertNode_spec (nodes := nodes) (a.1 + b.1) (c := 2 * m) (by omega) r.sorted
  have hpos := r.positive (2 * m) (by omega)
  have hlen' := ins.length
  have hk2 : 2 * m + 2 ≤ insertionPoint nodes (a.1 + b.1) nodes.length := by
    by_contra hlt
    have := ins.higher (2 * m + 1) (by omega) (by omega)
    omega
  refine ⟨insertNode nodes (a.1 + b.1) (2 * m), by simp only [rebuildFrom, ea, eb]; rfl, ?_⟩
  refine { length := by omega, sorted := ins.sorted r.sorted, positive := ins.positive r.positive (by omega),
           symbols := ?symbols, inner := ?inner, unpaired := ?unpaired }
  case symbols =>
    simp only [insertNode, sons, List.map_append, List.map_cons, BitVec.toNat_ofNat, List.range_succ, List.map_nil]
    rw [Nat.mod_eq_of_lt (by omega), ← List.append_assoc]
    refine List.perm_middle.trans (.trans ?_ (List.perm_append_singleton _ _).symm)
    rw [← List.map_append, ← List.map_append, List.take_append_drop]
    exact .cons _ r.symbols
  case inner =>
    have hk := ins.index_le
    generalize insertionPoint nodes (a.1 + b.1) nodes.length = k at ins hk2 hk
    intro j hj hc
    rcases Nat.lt_trichotomy j k with hjk | rfl | hjk
    · rw [ins.son_low j hjk] at hc ⊢
      obtain ⟨hlt, hsumc⟩ := r.inner j (by omega) hc
      rw [ins.freq_low _ hjk, ins.freq_low _ (by omega), ins.freq_low _ (by omega)]
      exact ⟨hlt, hsumc⟩
    · rw [ins.son_new, ins.freq_new, ins.freq_low _ (by omega), ins.freq_low _ (by omega)]
      exact ⟨by omega, by omega⟩
    · rw [ins.son_high j hjk] at hc ⊢
      obtain ⟨hlt, hsumc⟩ := r.inner (j - 1) (by omega) hc
      have hpaired : entry (sons nodes) (j - 1) + 1 < k := by
        rcases r.son_cases (show j - 1 < nodes.length by omega) with ⟨hge, _⟩ | ⟨i, hi, e⟩ <;> omega
      rw [ins.freq_high j hjk, ins.freq_low _ (by omega), ins.freq_low _ hpaired]
      exact ⟨by omega, hsumc⟩
  case unpaired =>
    have hfl : (freqs nodes).length = nodes.length := List.length_map _
    have hk := ins.index_le
    simp only [insertNode, freqs, List.map_append, List.map_cons, List.map_take, List.map_drop]
    simp only [freqs] at hfl htot
    generalize insertionPoint nodes (a.1 + b.1) nodes.length = k at *
    have hle : 2 * m + 2 ≤ ((nodes.map Prod.fst).take k).length := by
      rw [List.length_take]
      omega
    rw [← List.take_append_drop k (nodes.map Prod.fst), List.drop_append_of_le_length hle, total_append] at htot
    rw [show 2 * (m + 1) = 2 * m + 2 by omega, List.drop_append_of_le_length hle, total_append]
    simp only [total, List.map_cons, List.sum_cons] at htot ⊢
    omega

/-- The nodes built over `m` pairs can be built on to the root. -/
theorem Rebuilt.complete (hsum : sum < 2 ^ 16) {n : Nat} (hn : m + n + 1 = p.nChar) :
    ∃ nodes', rebuildFrom n (2 * m) nodes = some nodes' ∧ Rebuilt p sum (p.nChar - 1) nodes' := by
  induction n generalizing m nodes with
  | zero => exact ⟨nodes, rfl, by rwa [show p.nChar - 1 = m by omega]⟩
  | succ n ih =>
    obtain ⟨nodes1, e, r1⟩ := r.succ (by omega) hsum n
    rw [e]
    exact ih r1 (by omega)

end

/-- The halved leaves, with nothing built over them yet. -/
theorem rebuilt_leaves {p : Params} {h : Huff} (t : TreeUpTo p h noShortage) :
    Rebuilt p ((leafNodes p h).map (fun k => (entry h.freq k + 1) / 2)).sum 0 ((leafNodes p h).map (halvedLeaf h)) := by
  have hlen := leafNodes_length t
  have freq_at {k : Nat} (hk : k < (leafNodes p h).length) :
      entry (freqs ((leafNodes p h).map (halvedLeaf h))) k = (entry h.freq (leafNodes p h)[k] + 1) / 2 := by
    rw [← halvedLeaf_freq]
    simp [entry, freqs, hk]
  have hsons : (sons ((leafNodes p h).map (halvedLeaf h))).map BitVec.toNat = (leafNodes p h).map (entry h.son) := by
    simp only [sons, List.map_map]
    rfl
  have hlt {k : Nat} (hk : k < (leafNodes p h).length) : (leafNodes p h)[k] < p.T :=
    (mem_leafNodes.1 (List.getElem_mem hk)).1
  have hpairwise : (leafNodes p h).Pairwise (· < ·) := List.pairwise_lt_range.filter _
  have hrising {i j : Nat} (hij : i ≤ j) (hj : j < (leafNodes p h).length) :
      (leafNodes p h)[i] ≤ (leafNodes p h)[j] := by
    rcases Nat.lt_or_eq_of_le hij with hlt | rfl
    · exact (List.pairwise_iff_getElem.1 hpairwise i j (by omega) hj hlt).le
    · exact le_refl _
  refine { length := by simpa using hlen, sorted := ?sorted, positive := ?positive,
           symbols := by simpa [hsons] using leafNodes_sons t, inner := ?inner, unpaired := ?unpaired }
  case sorted =>
    intro i j hij hj
    rw [List.length_map] at hj
    rw [freq_at (by omega), freq_at hj]
    have := t.freq_mono (hrising hij hj) (hlt hj)
    omega
  case positive =>
    intro k hk
    rw [List.length_map] at hk
    have := t.positive _ (hlt hk)
    rw [freq_at hk]
    omega
  case inner =>
    intro k hk hc
    have hmem := entry_mem_map (l := sons ((leafNodes p h).map (halvedLeaf h))) (k := k) (by simpa [sons] using hk)
    rw [hsons, (leafNodes_sons t).mem_iff, List.mem_range'_1] at hmem
    omega
  case unpaired =>
    simp [total, freqs, ← halvedLeaf_freq, Function.comp_def]

/-- The halved leaves weigh less than MAX_FREQ together: at most half of the root and half a count for each symbol. -/
theorem halved_total_lt {p : Params} {h : Huff} (t : TreeUpTo p h noShortage)
    (hroot : entry h.freq p.root ≤ Config.MAX_FREQ) :
    ((leafNodes p h).map (fun k => (entry h.freq k + 1) / 2)).sum < Config.MAX_FREQ := by
  have ha := params_alphabet p
  have hmax : Config.MAX_FREQ = 0x8000 := rfl
  have hle := sum_halves_le ((leafNodes p h).map (entry h.freq))
  rw [List.map_map, leafNodes_total t, List.length_map, leafNodes_length t] at hle
  simp only [Function.comp_def] at hle
  omega

/-! ### The tree that has been built -/

section
variable {p : Params} {sum : Nat} {nodes : List HuffNode} (r : Rebuilt p sum (p.nChar - 1) nodes)
include r

theorem Rebuilt.length_eq : nodes.length = p.T := by
  have ha := params_alphabet p
  rw [r.length]
  omega

/-- No two nodes own the same prnt entry. -/
theorem Rebuilt.spans_unique {q q' x : Nat} (hq : q < p.T) (hq' : q' < p.T) (hx : Spans p.T (entry (sons nodes) q) x)
    (hx' : Spans p.T (entry (sons nodes) q') x) : q = q' := by
  have ha := params_alphabet p
  have hlen := r.length_eq
  have hvalue : entry (sons nodes) q = entry (sons nodes) q' := by
    rcases r.son_cases (by omega : q < nodes.length) with ⟨h1, _⟩ | ⟨i, hi, h1⟩ <;>
    rcases r.son_cases (by omega : q' < nodes.length) with ⟨h2, _⟩ | ⟨i', hi', h2⟩ <;>
    omega
  have hnodup : ((sons nodes).map BitVec.toNat).Nodup := by
    refine r.symbols.nodup_iff.2 (List.Nodup.append List.nodup_range' ?_ ?_)
    · exact List.nodup_range.map fun i j e => by omega
    · intro x h1 h2
      simp only [List.mem_range'_1, List.mem_map, List.mem_range] at h1 h2
      obtain ⟨i, hi, rfl⟩ := h2
      omega
  have hlen' : ((sons nodes).map BitVec.toNat).length = p.T := by simp [sons, hlen]
  refine (hnodup.getElem_inj_iff (hi := by omega) (hj := by omega)).1 ?_
  have get {k : Nat} (hk : k < ((sons nodes).map BitVec.toNat).length) :
      ((sons nodes).map BitVec.toNat)[k] = entry (sons nodes) k := by
    rw [List.length_map] at hk
    simp [entry, hk]
  rw [get, get, hvalue]

/-- Every node but the root, and every symbol, has a parent. -/
theorem Rebuilt.exists_spans {x : Nat} (hx : x < p.T + p.nChar) (hne : x ≠ p.root) :
    ∃ q, q < p.T ∧ Spans p.T (entry (sons nodes) q) x := by
  have ha := params_alphabet p
  have hmem {c : Nat} (hc : c ∈ List.range' p.T p.nChar ++ (List.range (p.nChar - 1)).map (2 * ·)) :
      ∃ q, q < p.T ∧ entry (sons nodes) q = c := by
    obtain ⟨q, hq, e⟩ := List.getElem_of_mem (r.symbols.mem_iff.2 hc)
    rw [List.length_map] at hq
    refine ⟨q, by simpa [sons, r.length_eq] using hq, ?_⟩
    rw [← e]
    simp [entry, hq]
  by_cases hxT : x < p.T
  · obtain ⟨q, hq, e⟩ := hmem (c := 2 * (x / 2))
      (List.mem_append_right _ (List.mem_map.2 ⟨x / 2, List.mem_range.2 (by omega), rfl⟩))
    exact ⟨q, hq, by rw [e]; omega⟩
  · obtain ⟨q, hq, e⟩ := hmem (c := x) (List.mem_append_left _ (List.mem_range'_1.2 (by omega)))
    exact ⟨q, hq, .inl e.symm⟩

/-- The root has none. -/
theorem Rebuilt.not_spans_root {q : Nat} (hq : q < p.T) : ¬ Spans p.T (entry (sons nodes) q) p.root := by
  have ha := params_alphabet p
  have hlen := r.length_eq
  rcases r.son_cases (by omega : q < nodes.length) with ⟨h1, _⟩ | ⟨i, hi, h1⟩ <;> omega

/-- What is left without a parent is the root, which weighs what the leaves weigh. -/
theorem Rebuilt.root_freq : entry (freqs nodes) p.root = sum := by
  have ha := params_alphabet p
  have hlen : (freqs nodes).length = p.T := by simp [freqs, r.length_eq]
  have h := r.unpaired
  rw [show 2 * (p.nChar - 1) = p.root by omega, List.drop_eq_getElem_cons (by omega),
    List.drop_eq_nil_of_le (by omega)] at h
  rw [← h]
  simp [entry, total, show p.root < (freqs nodes).length by omega]

end

/-! ### Step 3: the parents -/

/-- Each node becomes the parent of the entries it owns, the last one where several own the same. -/
theorem reparentFrom_spec {t : Nat} : ∀ {i : Nat} {S : List Half} {h : Huff},
    (∀ k x, k < S.length → Spans t (entry S k) x → x < h.prnt.length) → i + S.length ≤ 2 ^ 16 →
      ∃ P : List Half, reparentFrom t i S h = some { h with prnt := P } ∧ P.length = h.prnt.length ∧
        (∀ x, (∀ k, k < S.length → ¬ Spans t (entry S k) x) → entry P x = entry h.prnt x) ∧
        ∀ x k, k < S.length → Spans t (entry S k) x →
          (∀ k', k < k' → k' < S.length → ¬ Spans t (entry S k') x) → entry P x = i + k
  | i, [], h, _, _ => ⟨h.prnt, rfl, rfl, fun _ _ => rfl, fun _ _ hk => absurd hk (Nat.not_lt_zero _)⟩
  | i, c :: S, h, hin, hlen => by
    rw [List.length_cons] at hlen
    obtain ⟨P, eP, hP, hset, hkeep⟩ := Huff.setParent_spec (t := t) (h := h) (c := c.toNat) (v := i)
      (fun x hx => hin 0 x (by simp) hx) (by omega)
    obtain ⟨P', eP', hP', hkeep', hset'⟩ := reparentFrom_spec (t := t) (i := i + 1) (S := S) (h := { h with prnt := P })
      (fun k x hk hx => by rw [hP]; exact hin (k + 1) x (by simpa using hk) hx) (by omega)
    refine ⟨P', by simp only [reparentFrom, eP, eP'], hP'.trans hP, fun x hx => ?_, fun x k hk hx hlast => ?_⟩
    · exact (hkeep' x fun k hk => hx (k + 1) (by simpa using hk)).trans (hkeep x (hx 0 (by simp)))
    · cases k with
      | zero => exact (hkeep' x fun k hk => hlast (k + 1) (by omega) (by simpa using hk)).trans (hset x hx)
      | succ k =>
        have := hset' x k (by simpa using hk) hx fun k' h1 h2 => hlast (k' + 1) (by omega) (by simpa using h2)
        omega

/-! ### reconst -/

theorem entry_append_left {l m : List Half} {k : Nat} (hk : k < l.length) : entry (l ++ m) k = entry l k := by
  simp only [entry, List.getD_append _ _ _ _ hk]

/-- Halving a tree leaves a tree, with its root below MAX_FREQ (R187, R190). -/
theorem TreeSound.reconst_spec {p : Params} {h : Huff} (ts : TreeSound p h) :
    ∃ h', reconst p h = some h' ∧ TreeSound p h' ∧ entry h'.freq p.root < Config.MAX_FREQ := by
  have ha := params_alphabet p
  have hmax : Config.MAX_FREQ = 0x8000 := rfl
  have t := ts.treeUpTo
  obtain ⟨hfl, _, hpl⟩ := t.sized
  have hsum := halved_total_lt t ts.root_le
  obtain ⟨nodes, e, r⟩ := (rebuilt_leaves t).complete (n := p.T - p.nChar) (by omega) (by omega)
  have hlen := r.length_eq
  have hflen : (freqs nodes).length = p.T := by simp [freqs, hlen]
  have hslen : (sons nodes).length = p.T := by simp [sons, hlen]
  obtain ⟨P, eP, hP, hkeep, hset⟩ := reparentFrom_spec (t := p.T) (i := 0) (S := sons nodes)
    (h := { freq := freqs nodes ++ h.freq.drop p.T, son := sons nodes, prnt := h.prnt })
    (fun q x hq hx => by
      rw [hpl]
      rcases r.son_cases (by omega : q < nodes.length) with ⟨h1, h2⟩ | ⟨i, hi, h1⟩ <;> omega)
    (by omega)
  have freq_at {k : Nat} (hk : k < p.T) : entry (freqs nodes ++ h.freq.drop p.T) k = entry (freqs nodes) k :=
    entry_append_left (by omega)
  have hroot' : entry (freqs nodes ++ h.freq.drop p.T) p.root < Config.MAX_FREQ := by
    rw [freq_at (by omega), r.root_freq]
    exact hsum
  refine ⟨{ freq := freqs nodes ++ h.freq.drop p.T, son := sons nodes, prnt := P }, ?run,
    TreeUpTo.treeSound ?tree hroot'.le, hroot'⟩
  case run =>
    simp only [reconst, halvedLeaves_eq t.sized, List.length_map, leafNodes_length t, if_true]
    simp only [Nat.mul_zero] at e
    simp only [e]
    exact eP
  refine { sized := ⟨?_, hslen, hP.trans hpl⟩, rising := ?rising, positive := ?positive, sentinel := ?sentinel,
           below := ?below, range := ?range, sum := ?sum, parent_of_child := ?parent, child := ?child,
           root_parent := ?root }
  · simp only [List.length_append, hflen, List.length_drop]
    omega
  case rising =>
    intro k hk
    rw [freq_at hk, freq_at (by omega)]
    exact r.sorted k (k + 1) (by omega) (by omega)
  case positive =>
    intro k hk
    rw [freq_at hk]
    exact r.positive k (by omega)
  case sentinel =>
    rw [← t.sentinel]
    simp only [entry]
    rw [List.getD_append_right _ _ _ _ (by omega), hflen, Nat.sub_self, List.getD_eq_getElem?_getD,
      List.getElem?_drop, Nat.add_zero, ← List.getD_eq_getElem?_getD]
  case below => exact fun q hq hc => (r.inner q (by omega) hc).1
  case range =>
    intro q hq
    rcases r.son_cases (by omega : q < nodes.length) with ⟨_, h2⟩ | ⟨i, hi, h1⟩
    · exact h2
    · show entry (sons nodes) q < _
      omega
  case sum =>
    intro q hq hc
    obtain ⟨hlt, hadd⟩ := r.inner q (by omega) hc
    dsimp only at hc ⊢
    rw [freq_at (by omega), freq_at (by omega), freq_at hq]
    exact hadd
  case parent =>
    intro q x hq hx
    have hlast : ∀ q', q < q' → q' < (sons nodes).length → ¬ Spans p.T (entry (sons nodes) q') x :=
      fun q' h1 h2 hx' => absurd (r.spans_unique hq (by omega) hx hx') (by omega)
    rw [hset x q (by omega) hx hlast, Nat.zero_add]
  case child => exact fun x hx hne => r.exists_spans hx hne
  case root =>
    exact (hkeep _ fun q hq => r.not_spans_root (by omega)).trans t.root_parent

/-! ### update -/

/-- The tables that an update starts from hold a tree with its root below MAX_FREQ. -/
theorem TreeSound.halvedIfFull_spec {p : Params} {h : Huff} (ts : TreeSound p h) :
    ∃ h', h.halvedIfFull p = some h' ∧ TreeSound p h' ∧ entry h'.freq p.root < Config.MAX_FREQ := by
  have ha := params_alphabet p
  have t := ts.treeUpTo
  obtain ⟨hfl, _, _⟩ := t.sized
  simp only [Huff.halvedIfFull, Huff.freqAt_eq (show p.root < h.freq.length by omega)]
  split
  · exact ts.reconst_spec
  · next hne => exact ⟨h, rfl, ts, Nat.lt_of_le_of_ne ts.root_le hne⟩

/-- The update of a tree with any symbol of its alphabet leaves a tree (R188, R190). -/
theorem TreeSound.update_spec {p : Params} {h : Huff} {c : Nat} (ts : TreeSound p h) (hc : c < p.nChar) :
    ∃ h', h.update p c = some h' ∧ TreeSound p h' := by
  obtain ⟨u, eu, tu, hlt⟩ := ts.halvedIfFull_spec
  obtain ⟨n, h', en, eh, th⟩ := tu.climb_from_leaf hc hlt
  exact ⟨h', by simp only [Huff.update, eu, en, eh], th⟩

end Sys2Proof.Machine
end

section
/-!
The machine never stops (30_encoding.md R95; 60_exceptions.md R252): every instruction but a symbol's answers a next state in
every state, and a symbol's does where the tables hold a tree. Settles O60.
-/

namespace Sys2Proof.Machine

open Sys2Proof.Config (Params)

/-- The result is a next state. -/
def Answers (r : Result) : Prop := ∃ t, r = .next t

theorem Answers.next (t : State) : Answers (.next t) := ⟨t, rfl⟩

/-! ### The framer's bytes -/

/-- A byte in any state of the framer answers a next state, an error's being one. -/
theorem exec_decodeByte_answers (f : FState) (b : Byte) (s : State) : Answers (exec (decodeByte f b) s) := by
  cases f with
  | soh | hlen | rstx | rlen | blen =>
    simp only [decodeByte]
    split <;> exact .next _
  | mark =>
    simp only [decodeByte]
    split_ifs <;> exact .next _
  | subj =>
    simp only [decodeByte]
    split
    · simp only [exec, execSubjNul]
      split <;> exact .next _
    · simp only [exec, execSubjByte]
      split <;> exact .next _
  | offs =>
    simp only [decodeByte]
    split
    · simp only [exec, execOffsDigit]
      split
      · exact .next _
      · split <;> exact .next _
    · split
      · simp only [exec, execOffsNul]
        split_ifs <;> exact .next _
      · exact .next _
  | lead =>
    simp only [decodeByte, exec, execLeadByte]
    split <;> exact .next _
  | bdata =>
    simp only [decodeByte, exec, execBlkData]
    split
    · exact .next _
    · split <;> exact .next _
  | csum =>
    simp only [decodeByte, exec, execCsum]
    split_ifs <;> exact .next _

theorem frameTurn_answers (s : State) : Answers (frameTurn s) := by
  unfold frameTurn
  split
  · rw [runWord_frame]
    exact exec_decodeByte_answers _ _ s
  · split <;> exact .next _

/-! ### The symbols (42_lzhuf.md R190, R191) -/

/-- From the entry of a node of a tree the walk reaches a symbol of the alphabet or the end of the body. -/
theorem walkFrom_on_tree {p : Params} {h : Huff} (t : TreeUpTo p h noShortage) : ∀ {left n : Nat} {s : State},
    s.params = p → s.huff = h → n < p.T + p.nChar → (n < p.T → n + 1 < p.T) →
      (∃ u, walkFrom left n s = .truncated u) ∨ ∃ c u, walkFrom left n s = .leaf c u ∧ c < p.nChar
  | left, n, s, hp, hh, hn, hpair => by
    unfold walkFrom
    by_cases hT : p.T ≤ n
    · rw [if_pos (hp ▸ hT)]
      exact .inr ⟨n - s.params.T, s, rfl, by rw [hp]; omega⟩
    · rw [if_neg (hp ▸ hT)]
      cases left with
      | zero => exact .inl ⟨s, rfl⟩
      | succ left =>
        have hbit := Bool.toNat_lt (s.bodyBit s.dec.bitpos)
        have hk : n + (s.bodyBit s.dec.bitpos).toNat < p.T := by omega
        have hson := Huff.sonAt_eq (h := h) (k := n + (s.bodyBit s.dec.bitpos).toNat) (by rw [t.sized.2.1]; exact hk)
        simp only [hh, hson]
        exact walkFrom_on_tree t hp hh (t.range _ hk) (fun hc => by have := t.below _ hk hc; omega)

theorem State.walk_on_tree {s : State} (ts : TreeSound s.params s.huff) :
    (∃ u, s.walk = .truncated u) ∨ ∃ c k, s.walk = .leaf c (s.atBit k) ∧ c < s.params.nChar := by
  have ha := params_alphabet s.params
  have t := ts.treeUpTo
  have hroot : s.params.root < s.params.T := by omega
  have hson := Huff.sonAt_eq (h := s.huff) (k := s.params.root) (by rw [ts.son_length]; exact hroot)
  have hwalk : s.walk = walkFrom (s.bodyBits - s.dec.bitpos) (entry s.huff.son s.params.root) s := by
    simp only [State.walk, hson]
  rcases walkFrom_on_tree t rfl rfl (t.range _ hroot) (fun hc => by have := t.below _ hroot hc; omega) with
    ⟨u, e⟩ | ⟨c, u, e, hc⟩
  · exact .inl ⟨u, hwalk.trans e⟩
  · obtain ⟨k, rfl⟩ := State.walk_leaf (hwalk.trans e)
    exact .inr ⟨c, k, hwalk.trans e, hc⟩

/-- The symbol word of a symbol of some alphabet is a literal's or a match symbol's (30_encoding.md R92). -/
theorem runWord_symbol {c : Nat} (hc : c < 511) (s : State) :
    (∃ b : Byte, b.toNat = c ∧ runWord (.lzhSym (BitVec.ofNat 9 c)) s = exec (.lit b) s) ∨
      ∃ m : Byte, 256 + m.toNat = c ∧ runWord (.lzhSym (BitVec.ofNat 9 c)) s = exec (.matchSym m) s := by
  by_cases hlit : c < 256
  · have hb : (BitVec.ofNat 8 c).toNat = c := Nat.mod_eq_of_lt hlit
    have hw : BitVec.ofNat 9 c = (0 : BitVec 1) ++ BitVec.ofNat 8 c := by
      apply BitVec.eq_of_toNat_eq
      rw [toNat_append_parts, hb, BitVec.toNat_ofNat, Nat.mod_eq_of_lt (by omega)]
      simp
    obtain ⟨hdec, _⟩ := decodeSym_append (BitVec.ofNat 8 c)
    exact .inl ⟨_, hb, runWord_of_decode (show decode (.lzhSym (BitVec.ofNat 9 c)) = _ by rw [hw]; exact hdec) s⟩
  · have hm : (BitVec.ofNat 8 (c - 256)).toNat = c - 256 := Nat.mod_eq_of_lt (by omega)
    have hw : BitVec.ofNat 9 c = (1 : BitVec 1) ++ BitVec.ofNat 8 (c - 256) := by
      apply BitVec.eq_of_toNat_eq
      have hbit : (1 : BitVec 1).toNat = 1 := rfl
      rw [toNat_append_parts, hm, hbit, BitVec.toNat_ofNat, Nat.mod_eq_of_lt (by omega)]
      omega
    obtain ⟨_, hdec⟩ := decodeSym_append (BitVec.ofNat 8 (c - 256))
    refine .inr ⟨BitVec.ofNat 8 (c - 256), by omega, runWord_of_decode ?_ s⟩
    show decode (.lzhSym (BitVec.ofNat 9 c)) = _
    rw [hw]
    exact hdec (by omega)

theorem State.takeSymbol_on_tree {s : State} (ts : TreeSound s.params s.huff) {c : Nat} (hc : c < s.params.nChar) :
    ∃ t, s.takeSymbol c = some t := by
  obtain ⟨h, e, _⟩ := ts.update_spec hc
  exact ⟨_, by simp only [State.takeSymbol, e]; rfl⟩

theorem runWord_symbol_answers {s : State} (ts : TreeSound s.params s.huff) {c : Nat} (hc : c < s.params.nChar) :
    Answers (runWord (.lzhSym (BitVec.ofNat 9 c)) s) := by
  have ha := params_alphabet s.params
  obtain ⟨t, e⟩ := State.takeSymbol_on_tree ts hc
  rcases runWord_symbol (by omega : c < 511) s with ⟨b, rfl, hrun⟩ | ⟨m, rfl, hrun⟩
  · simp only [hrun, exec, execLit, e]
    exact .next _
  · simp only [hrun, exec, execMatchSym, e]
    exact .next _

theorem symTurn_answers {s : State} (ts : TreeSound s.params s.huff) : Answers (symTurn s) := by
  have ha := params_alphabet s.params
  unfold symTurn
  split_ifs
  · exact .next _
  · exact .next _
  · exact .next _
  · exact .next _
  · rcases State.walk_on_tree ts with ⟨u, e⟩ | ⟨c, k, e, hc⟩
    · simp only [e]
      exact .next _
    · simp only [e, if_pos (show c < 512 by omega)]
      exact runWord_symbol_answers (s := s.atBit k) ts hc

/-! ### The positions, the engine's turn and the step -/

theorem posTurn_answers (s : State) : Answers (posTurn s) := by
  unfold posTurn
  split
  · exact .next _
  · rw [runWord_of_decode rfl, exec_decodePos_eq]
    exact .next _

theorem engineTurn_answers {s : State} (hs : s.treeReady) : Answers (engineTurn s) := by
  cases hp : s.ctl.phase with
  | idle => rw [engineTurn_idle hp]; exact .next _
  | done => rw [engineTurn_done hp]; exact .next _
  | error => rw [engineTurn_error hp]; exact .next _
  | frame => rw [engineTurn_frame hp]; exact frameTurn_answers s
  | check => rw [engineTurn_check hp]; exact .next _
  | decode =>
    cases hd : s.ctl.dstate with
    | env => rw [engineTurn_env hp hd]; exact .next _
    | init => rw [engineTurn_init hp hd]; exact .next _
    | sym => rw [engineTurn_sym hp hd]; exact symTurn_answers (hs hp (.inl hd))
    | pos => rw [engineTurn_pos hp hd]; exact posTurn_answers s
    | copy => rw [engineTurn_copy hp hd]; exact .next _

/-- A host step is a command or an access, and both complete. -/
theorem runWord_host_answers (op : HostOp) (s : State) : Answers (runWord op.word s) := by
  cases op with
  | command w =>
    show Answers (exec (decodeCmd w) s)
    rw [exec_decodeCmd]
    exact runCommand_completes w s
  | read offset =>
    obtain ⟨t, e, _⟩ := exec_access_quiet (isRegisterAccess_decodeRd offset) s
    exact ⟨t, e⟩
  | write offset v =>
    show Answers (exec (decodeWr offset v) s)
    rcases decodeWr_cases offset v with hcmd | haccess
    · rw [hcmd]
      exact runCommand_completes v s
    · obtain ⟨t, e, _⟩ := exec_access_quiet haccess s
      exact ⟨t, e⟩

theorem runMove_answers {m : Move} {s : State} (hs : s.treeReady) : Answers (runMove m s) := by
  cases m with
  | host op => exact runWord_host_answers op s
  | engine => exact engineTurn_answers hs
  | push _ | endInput | clearEnd | take | reset => exact .next _

/-- Settles O60: on a tree the walk ends at a symbol of the alphabet or at the end of the body, and the update with such a
symbol succeeds; nothing else in the machine can stop. -/
theorem everyStepAnswersANextState : Obligations.EveryStepAnswersANextState := by
  intro s hs
  rcases step_cases s with ⟨_, e⟩ | ⟨m, rest, _, _, e⟩ | ⟨m, rest, _, _, e⟩ <;> rw [e]
  · exact engineTurn_answers hs
  · exact runMove_answers (s := { s with agenda := rest }) hs
  · exact engineTurn_answers hs

end Sys2Proof.Machine
end

section
/-!
Register accesses with a rule of their own (40_host_commands.md R120 to R129): the image behind IMG_DATA, the control
registers' writes, and the accesses that are ignored. Settles O19, O16, O18 and O17.
-/

namespace Sys2Proof.Machine

/-! ### IMG_DATA (40_host_commands.md R127, R128) -/

section
variable {s : State} (b : Byte)

theorem State.imgDataByte_field (s : State) :
    field s.imgDataByte 0 =
      if s.host.imgAddr.toNat < s.params.cap then (s.readImg s.host.imgAddr.toNat).setWidth 32 else 0 := by
  rw [field_zero, State.imgDataByte]
  split <;> rfl

/-- The store changes the image alone. -/
theorem State.storeImgData_frame : s.storeImgData b = { s with img := (s.storeImgData b).img } := by
  unfold State.storeImgData
  split <;> rfl

theorem State.storeImgData_of_lt (h : s.host.imgAddr.toNat < s.params.cap) :
    s.storeImgData b = s.writeImg s.host.imgAddr.toNat b := if_pos h

theorem State.storeImgData_of_le (h : s.params.cap ≤ s.host.imgAddr.toNat) : s.storeImgData b = s :=
  if_neg (Nat.not_lt.2 h)

theorem State.readImg_storeImgData_self (h : s.host.imgAddr.toNat < s.params.cap) :
    (s.storeImgData b).readImg s.host.imgAddr.toNat = b := by
  rw [State.storeImgData_of_lt b h, State.readImg_writeImg_self]

theorem State.readImg_storeImgData_other {a : Nat}
    (h : a ≠ s.host.imgAddr.toNat ∨ s.params.cap ≤ s.host.imgAddr.toNat) :
    (s.storeImgData b).readImg a = s.readImg a := by
  rcases Nat.lt_or_ge s.host.imgAddr.toNat s.params.cap with hlt | hge
  · rw [State.storeImgData_of_lt b hlt, State.readImg_writeImg_ne s (h.resolve_right (Nat.not_le.2 hlt))]
  · rw [State.storeImgData_of_le b hge]

theorem execRdImgData_busy (hb : s.busy = true) : execRdImgData s = .next (s.answer 0) := if_pos hb

theorem execRdImgData_idle (hb : s.busy = false) :
    execRdImgData s = .next (s.advanceImgAddr.answer (field s.imgDataByte 0)) := by
  simp [execRdImgData, hb]

theorem execWrImgData_busy (hb : s.busy = true) (v : Word) : execWrImgData v s = .next s.refuse := if_pos hb

theorem execWrImgData_idle (hb : s.busy = false) (v : Word) :
    execWrImgData v s = .next (s.storeImgData (v.extractLsb' 0 8)).advanceImgAddr := by
  simp [execWrImgData, hb]

end

/-- Settles O19: the store touches the image alone, and the advance touches no memory. -/
theorem imgDataWriteStoresOneByte : Obligations.ImgDataWriteStoresOneByte := by
  intro s v
  refine ⟨fun hb => execWrImgData_busy hb v, fun hb => ⟨_, execWrImgData_idle hb v, ?frame, ?stored, ?others⟩⟩
  case frame => rw [State.storeImgData_frame]; rfl
  case stored => exact State.readImg_storeImgData_self _
  case others => exact fun _ => State.readImg_storeImgData_other _

/-- Settles O16. -/
theorem imgDataReadFollowsItsRule : Obligations.ImgDataReadFollowsItsRule := by
  intro s
  refine ⟨execRdImgData_busy, fun hb => ?idle⟩
  case idle =>
    rw [← State.imgDataByte_field]
    exact execRdImgData_idle hb

/-! ### IMAGE_LEN and IRQ_STATUS (40_host_commands.md R124, R126) -/

theorem execWrImageLen_refused {s : State} {v : Word} (h : s.busy = true ∨ s.params.cap < v.toNat) :
    execWrImageLen v s = .next s.refuse := if_pos (by simpa using h)

theorem execWrImageLen_accepted {s : State} {v : Word} (hb : s.busy = false) (hv : v.toNat ≤ s.params.cap) :
    execWrImageLen v s = .next { s with fr := { s.fr with imageLen := v } } := if_neg (by simp [hb, hv])

/-- A bit written as 1 clears the pending bit (R124). -/
theorem pending_and_not (pending written : Bool) :
    (pending && !written) = if written = true then false else pending := by
  cases written <;> simp

/-- Settles O18. -/
theorem controlWritesFollowTheirRules : Obligations.ControlWritesFollowTheirRules := by
  intro s v
  refine ⟨⟨_, rfl, rfl, rfl⟩, ?irqStatus, rfl, execWrImageLen_refused, execWrImageLen_accepted⟩
  case irqStatus =>
    rw [← pending_and_not, ← pending_and_not]
    rfl

/-! ### Ignored accesses (40_host_commands.md R120, R123) -/

/-- Settles O17: a write to a read-only or reserved word answers the state it finds, and a read of a reserved word
answers 0. -/
theorem readOnlyAndReservedAccesses : Obligations.ReadOnlyAndReservedAccesses := by
  intro s v k k1 k5 k7 k8 k9
  and_intros <;> rfl

end Sys2Proof.Machine
end

section
/-!
The host's commands (40_host_commands.md R110 to R119), each in its branches by `busy`. Settles O21, O22 and O23.
-/

namespace Sys2Proof.Machine

/-- Settles O21: what the decoder reads from a command word is what a write of that word to CMD runs. -/
theorem cmdWriteExecutesCommand : Obligations.CmdWriteExecutesCommand := by
  intro v s i hdecode
  obtain rfl : decodeCmd v = i := Decoded.instr.inj hdecode
  obtain ⟨t, hrun⟩ := runCommand_completes v s
  exact ⟨t, (exec_decodeCmd v s).trans hrun, hrun⟩

/-! ### ABORT and CLEAR (40_host_commands.md R116, R117) -/

section
variable {s : State}

theorem execAbort_busy (hb : s.busy = true) : execAbort s = .next (s.inError 0x30 s.fr.consumed 0 0) := by
  rw [execAbort, if_pos hb, State.raise_eq_inError]
  rfl

theorem execAbort_idle (hb : s.busy = false) : execAbort s = .next s := by
  simp [execAbort, hb]

theorem execClear_busy (hb : s.busy = true) : execClear s = .next s.refuse := if_pos hb

theorem execClear_idle (hb : s.busy = false) : execClear s = .next s.clearPhase := by
  simp [execClear, hb]

end

/-- Settles O22: NOP and the reserved codes do not ask whether the block is busy. -/
theorem nopAbortClearAndReservedCommands : Obligations.NopAbortClearAndReservedCommands := fun _ =>
  ⟨rfl, rfl, rfl, rfl, rfl, rfl, rfl, rfl, rfl, rfl, rfl,
    fun hb => ⟨execAbort_busy hb, execClear_busy hb⟩, fun hb => ⟨execAbort_idle hb, execClear_idle hb⟩⟩

/-! ### The start commands (40_host_commands.md R112 to R115) -/

/-- Settles O23: the three commands are one start, with its own mode, first phase and treatment of image_len each. -/
theorem startCommandsClearAndStart : Obligations.StartCommandsClearAndStart := by
  intro s
  refine ⟨fun hb => ?refused, fun hb => ?started⟩
  case refused =>
    have refused (keep : Bool) (mode : Mode) (phase : Phase) :
        (.next (s.start keep mode phase) : Result) = .next s.refuse := by rw [State.start_busy hb]
    exact ⟨refused false .run .frame, refused false .frameOnly .frame, refused true .decodeOnly .decode⟩
  case started =>
    have started (keep : Bool) (mode : Mode) (phase : Phase) :
        (.next (s.start keep mode phase) : Result) =
          .next { s.startClear keep with ctl := ⟨phase, mode, .soh, .env⟩ } := by rw [State.start_idle hb]
    exact ⟨started false .run .frame, started false .frameOnly .frame, started true .decodeOnly .decode⟩

end Sys2Proof.Machine
end

section
/-!
The framer's steps byte by byte (41_framer.md R140 to R151): what each instruction answers in each of its branches. Settles
O27, O30, O31, O24, O25, O26, O28, O29 and O32.
-/

namespace Sys2Proof.Machine

/-! ### Errors that name the byte just consumed (60_exceptions.md R253, R254) -/

section
variable {s u : State} (h : u.fr.consumed = s.fr.consumed + 1)
include h

/-- After one byte has been consumed, `at` is the count before it. -/
theorem State.at_of_consumed : u.at = s.fr.consumed := by
  rw [State.at, h, BitVec.add_sub_cancel]

theorem State.raiseByte_eq_inError (e : ErrCode) (x : Word) (b : Byte) :
    u.raiseByte e x b = u.inError e.code s.fr.consumed x (b.setWidth 32) := by
  rw [State.raiseByte, State.at_of_consumed h, State.raise_eq_inError]

theorem State.raiseHeader_eq_inError (x : Word) (b : Byte) :
    u.raiseHeader x b = u.inError 0x06 s.fr.consumed x (b.setWidth 32) :=
  State.raiseByte_eq_inError h .malformedHeader x b

end

/-- The down-counters' test: the byte counted was the last one. -/
theorem byte_pred_eq_zero {n : Byte} : n - 1 = 0 ↔ n.toNat = 1 := by
  constructor <;> intro h <;> bv_omega

/-! ### No byte offered (R140) -/

theorem frameTurn_ended {s : State} (hv : s.inp.valid = false) (he : s.inp.ended = true) :
    frameTurn s = .next (s.inError 0x05 s.fr.consumed (field s.ctl.fstate.code 0) 0) := by
  simp only [frameTurn, hv, he, State.raise_eq_inError]
  rfl

theorem noByteAt (f : FState) : NoByteAt f (field f.code 0) := by
  intro s e hturn hp hf hv
  rw [step_eq_engineTurn hturn, engineTurn_frame hp]
  exact ⟨fun he => hf ▸ frameTurn_ended hv he, fun he => frameTurn_waits hv he⟩

/-- Settles O24: one argument for every position, the expected word being its encoding. -/
theorem starvedFramerTruncatesOrHolds : Obligations.StarvedFramerTruncatesOrHolds :=
  ⟨noByteAt .soh, noByteAt .hlen, noByteAt .subj, noByteAt .offs, noByteAt .rstx, noByteAt .rlen, noByteAt .lead,
    noByteAt .mark, noByteAt .blen, noByteAt .bdata, noByteAt .csum⟩

/-! ### Markers and lengths (R141, R142, R145, R146, R148, R149) -/

/-- Settles O25: the accepting branches are the state as the rule writes it; the others name the byte. -/
theorem markerStepsFollowTheirRules : Obligations.MarkerStepsFollowTheirRules := by
  intro s b
  have raised (e : ErrCode) (expected : Word) : (.next (s.consumeByte.raiseByte e expected b) : Result) =
      .next (s.byteTaken.inError e.code s.fr.consumed expected (b.setWidth 32)) :=
    congrArg _ (State.raiseByte_eq_inError rfl e expected b)
  exact ⟨rfl, fun _ => raised .missingHeaderMarker 0x01, rfl, fun _ => raised .malformedResumeBlock 0x02, rfl,
    fun _ => raised .malformedResumeBlock 0x06, rfl, rfl, fun _ _ => raised .unexpectedBlockMarker 0x00000402⟩

/-- Settles O26. -/
theorem lengthByteSteps : Obligations.LengthByteSteps := by
  refine ⟨fun _ _ _ => rfl, fun s b _ => ?shortHeader, fun _ _ _ => rfl, fun s b _ => ?longBlock⟩
  case shortHeader => exact congrArg _ (State.raiseHeader_eq_inError (s := s) rfl 1 b)
  case longBlock => exact congrArg _ (State.raiseByte_eq_inError (s := s) rfl .blockLengthInvalid 250 b)

/-! ### The subject (R143) -/

section
variable {s : State} (b : Byte)

/-- `s` after a subject byte has been taken and stored at subj_len. -/
def State.subjectTaken (s : State) (b : Byte) : State :=
  { s.headerByteTaken with
    subj := Memory.write none s.fr.subjLen.toNat b s.subj
    fr := { s.headerByteTaken.fr with subjLen := s.fr.subjLen + 1 } }

theorem State.readSubj_subjectTaken_self : (s.subjectTaken b).readSubj s.fr.subjLen.toNat = b :=
  State.readSubj_writeSubj_self s _ b

theorem State.readSubj_subjectTaken_ne {j : Nat} (h : j ≠ s.fr.subjLen.toNat) :
    (s.subjectTaken b).readSubj j = s.readSubj j := State.readSubj_writeSubj_ne s h b

/-- A subject byte that uses up the header is reason 2. -/
theorem execSubjByte_eq : execSubjByte b s = .next (if s.fr.hdrRem.toNat = 1
    then (s.subjectTaken b).inError 0x06 s.fr.consumed 2 (b.setWidth 32) else s.subjectTaken b) := by
  rw [← State.raiseHeader_eq_inError rfl, apply_ite Host.Outcome.next]
  exact if_congr byte_pred_eq_zero rfl rfl

theorem execSubjNul_last (h : s.fr.hdrRem.toNat = 1) :
    execSubjNul s = .next (s.headerByteTaken.inError 0x06 s.fr.consumed 3 0x00) :=
  (if_pos (byte_pred_eq_zero.2 h)).trans (congrArg _ (State.raiseHeader_eq_inError rfl 3 0x00))

theorem execSubjNul_more (h : s.fr.hdrRem.toNat ≠ 1) :
    execSubjNul s = .next { s.headerByteTaken with ctl := { s.ctl with fstate := .offs } } :=
  if_neg (mt byte_pred_eq_zero.1 h)

end

/-- Settles O27. -/
theorem subjectSteps : Obligations.SubjectSteps := by
  intro s
  refine ⟨fun b _ _ => ⟨_, execSubjByte_eq b, ?byte⟩, fun h => execSubjNul_more (by omega), execSubjNul_last⟩
  case byte =>
    split <;> exact ⟨rfl, State.readSubj_subjectTaken_self b, fun _ => State.readSubj_subjectTaken_ne b⟩

/-! ### The offset (R144) -/

section
variable {s : State} (b : Byte)

/-- `s` after a digit that fits has been taken; the count of digits stays at 255. -/
def State.digitTaken (s : State) (b : Byte) : State :=
  { s.headerByteTaken with
    fr := { s.headerByteTaken.fr with
      offsAcc := BitVec.ofNat 32 (offsetWith s.fr.offsAcc b)
      offsNdig := BitVec.ofNat 8 (min (s.fr.offsNdig.toNat + 1) 255) } }

theorem digitCount_saturates (n : Byte) :
    (if n = 255 then 255 else n + 1) = BitVec.ofNat 8 (min (n.toNat + 1) 255) := by
  split
  · next h => subst h; rfl
  · next h =>
    have hlt : n.toNat + 1 ≤ 255 := by bv_omega
    rw [Nat.min_eq_left hlt]
    bv_omega

theorem execOffsDigit_overflow (h : 0xFFFFFFFF < offsetWith s.fr.offsAcc b) :
    execOffsDigit b s = .next (s.headerByteTaken.inError 0x06 s.fr.consumed 5 (b.setWidth 32)) :=
  (if_pos h).trans (congrArg _ (State.raiseHeader_eq_inError rfl 5 b))

/-- A digit that uses up the header is reason 6, its value being stored. -/
theorem execOffsDigit_fits (h : offsetWith s.fr.offsAcc b ≤ 0xFFFFFFFF) :
    execOffsDigit b s = .next (if s.fr.hdrRem.toNat = 1
      then (s.digitTaken b).inError 0x06 s.fr.consumed 6 (b.setWidth 32) else s.digitTaken b) := by
  rw [← State.raiseHeader_eq_inError rfl, apply_ite Host.Outcome.next, State.digitTaken, ← digitCount_saturates]
  exact (if_neg (Nat.not_lt.2 h)).trans (if_congr byte_pred_eq_zero rfl rfl)

theorem execOffsNul_empty (h : s.fr.offsNdig = 0) :
    execOffsNul s = .next (s.headerByteTaken.inError 0x06 s.fr.consumed 7 0x00) :=
  (if_pos h).trans (congrArg _ (State.raiseHeader_eq_inError rfl 7 0x00))

theorem execOffsNul_early (hd : s.fr.offsNdig ≠ 0) (h : s.fr.hdrRem.toNat ≠ 1) :
    execOffsNul s = .next (s.headerByteTaken.inError 0x06 s.fr.consumed 8 ((s.fr.hdrRem - 1).setWidth 32)) :=
  (if_neg hd).trans <| (if_pos (mt byte_pred_eq_zero.1 h)).trans
    (congrArg _ (State.raiseHeader_eq_inError rfl 8 (s.fr.hdrRem - 1)))

/-- The offset that ends the header: the message is resumed where it is not 0. -/
theorem execOffsNul_end {resumed : Bool} (hd : s.fr.offsNdig ≠ 0) (h : s.fr.hdrRem.toNat = 1)
    (hacc : (s.fr.offsAcc != 0) = resumed) :
    execOffsNul s = .next { s.headerByteTaken with
      fr := { s.headerByteTaken.fr with resumed := resumed }
      ctl := { s.ctl with fstate := if resumed then .rstx else .mark } } := by
  subst hacc
  exact (if_neg hd).trans (if_neg (not_not.2 (byte_pred_eq_zero.2 h)))

end

/-- Settles O28. -/
theorem offsetDigitStep : Obligations.OffsetDigitStep := by
  intro s b _ _ _
  refine ⟨execOffsDigit_overflow b, fun hv hrem => ?more, fun hv hrem => ?last⟩
  case more => exact (execOffsDigit_fits b hv).trans (congrArg _ (if_neg (by omega)))
  case last => exact (execOffsDigit_fits b hv).trans (congrArg _ (if_pos hrem))

/-- Settles O29. -/
theorem offsetEndSteps : Obligations.OffsetEndSteps := by
  intro s _
  refine ⟨execOffsNul_empty, fun hd hrem => execOffsNul_early hd (by omega), fun hd hrem hacc => ?complete,
    fun hd hrem hacc => ?resumed, fun b _ _ => ?illegal⟩
  case complete => exact execOffsNul_end hd hrem (bne_eq_false_iff_eq.2 hacc)
  case resumed => exact execOffsNul_end hd hrem (bne_iff_ne.2 hacc)
  case illegal => exact congrArg _ (State.raiseHeader_eq_inError (s := s) rfl 4 b)

/-! ### The resume block's lead bytes (R147) -/

/-- `s` after a lead byte has been taken. -/
def State.leadTaken (s : State) (b : Byte) : State :=
  { s.byteTaken with
    fr := { s.byteTaken.fr with
      lead := s.fr.lead.set s.fr.leadCnt.toNat b
      leadCnt := s.fr.leadCnt + 1
      sum := if s.params.val.leadInSum = true then s.fr.sum + b else s.fr.sum }
    ctl := { s.ctl with fstate := if s.fr.leadCnt.toNat = 5 then .mark else s.ctl.fstate } }

theorem leadCnt_succ_eq_six {n : BitVec 3} : n + 1 = 6 ↔ n.toNat = 5 := by
  revert n
  decide

theorem execLeadByte_eq (b : Byte) (s : State) : execLeadByte b s = .next (s.leadTaken b) := by
  by_cases h : s.fr.leadCnt.toNat = 5
  · rw [State.leadTaken, if_pos h]
    exact if_pos (leadCnt_succ_eq_six.2 h)
  · rw [State.leadTaken, if_neg h]
    exact if_neg (mt leadCnt_succ_eq_six.1 h)

/-- Settles O30. -/
theorem leadByteStep : Obligations.LeadByteStep := by
  intro s b hlen hcnt
  refine ⟨_, execLeadByte_eq b s, rfl, ?length, fun k hk => ?entries⟩
  case length => exact List.length_set.trans hlen
  case entries =>
    have hk' : k < s.fr.lead.length := hlen ▸ hk
    simp only [State.leadTaken, List.getD_eq_getElem?_getD, List.getElem?_set, eq_comm (a := k)]
    split <;> simp [*]

/-! ### The payload (R150) -/

section
variable {s : State} (b : Byte)

/-- `s` after a payload byte has been taken and stored at image_len. -/
def State.dataTaken (s : State) (b : Byte) : State :=
  { s.byteTaken with
    img := Memory.write none s.fr.imageLen.toNat b s.img
    fr := { s.byteTaken.fr with
      imageLen := s.fr.imageLen + 1, sum := s.fr.sum + b, blkRem := s.fr.blkRem - 1 }
    ctl := { s.ctl with fstate := if s.fr.blkRem.toNat = 1 then .mark else s.ctl.fstate } }

theorem State.readImg_dataTaken_self : (s.dataTaken b).readImg s.fr.imageLen.toNat = b :=
  State.readImg_writeImg_self s _ b

theorem State.readImg_dataTaken_ne {a : Nat} (h : a ≠ s.fr.imageLen.toNat) :
    (s.dataTaken b).readImg a = s.readImg a := State.readImg_writeImg_ne s h b

theorem execBlkData_full (h : s.fr.imageLen.toNat = s.params.cap) :
    execBlkData b s = .next (s.byteTaken.inError 0x08 s.fr.consumed (BitVec.ofNat 32 s.params.cap)
      s.byteTaken.overflowActual) := by
  rw [← State.at_of_consumed (s := s) (u := s.byteTaken) rfl]
  exact if_pos h

theorem execBlkData_stored (h : s.fr.imageLen.toNat ≠ s.params.cap) : execBlkData b s = .next (s.dataTaken b) := by
  refine (if_neg h).trans ?_
  by_cases hrem : s.fr.blkRem.toNat = 1
  · rw [State.dataTaken, if_pos hrem]
    exact if_pos (byte_pred_eq_zero.2 hrem)
  · rw [State.dataTaken, if_neg hrem]
    exact if_neg (mt byte_pred_eq_zero.1 hrem)

end

/-- Settles O31. -/
theorem blockDataStep : Obligations.BlockDataStep := by
  intro s b _
  refine ⟨fun hfull hcap => ?overflow, fun hfull _ => ⟨_, execBlkData_full b hfull⟩, fun hroom => ?stored⟩
  case overflow =>
    have hfits : s.byteTaken.fr.imageLen ≠ 0xFFFFFFFF := by
      intro h
      have htoNat : s.fr.imageLen.toNat = 0xFFFFFFFF := congrArg BitVec.toNat h
      omega
    exact (execBlkData_full b hfull).trans (by rw [State.overflowActual_of_fits _ hfits]; rfl)
  case stored =>
    exact ⟨_, execBlkData_stored b (Nat.ne_of_lt hroom), rfl, State.readImg_dataTaken_self b,
      fun _ => State.readImg_dataTaken_ne b⟩

/-! ### The checksum (R151) -/

section
variable {s : State} {b : Byte}

/-- `s` after the checksum byte has been taken and both checksums recorded. -/
def State.checksumTaken (s : State) (b : Byte) : State :=
  { s.byteTaken with fr := { s.byteTaken.fr with csumRx := b, csumExp := checksumOf s.fr.sum } }

theorem checksumOf_eq (sum : Byte) : checksumOf sum = BitVec.ofNat 8 (256 - sum.toNat) := by
  apply BitVec.eq_of_toNat_eq
  simp [checksumOf]

theorem execCsum_mismatch (h : b ≠ checksumOf s.fr.sum) :
    execCsum b s = .next ((s.checksumTaken b).inError 0x04 s.fr.consumed ((checksumOf s.fr.sum).setWidth 32)
      (b.setWidth 32)) :=
  (if_pos h).trans (congrArg _ (State.raiseByte_eq_inError rfl .checksumMismatch _ b))

theorem execCsum_decodes (h : b = checksumOf s.fr.sum) (hrun : s.ctl.mode = .run ∧ s.fr.resumed = false) :
    execCsum b s = .next { s.checksumTaken b with ctl := { s.ctl with phase := .decode, dstate := .env } } :=
  (if_neg (not_not.2 h)).trans (if_pos hrun)

theorem execCsum_completes (h : b = checksumOf s.fr.sum) (hrun : ¬(s.ctl.mode = .run ∧ s.fr.resumed = false)) :
    execCsum b s = .next (s.checksumTaken b).complete :=
  (if_neg (not_not.2 h)).trans (if_neg hrun)

end

/-- Settles O32. -/
theorem checksumStep : Obligations.ChecksumStep := by
  intro s b
  simp only [← checksumOf_eq]
  refine ⟨execCsum_mismatch, fun h hm hr => execCsum_decodes h ⟨hm, hr⟩, fun h hother => execCsum_completes h ?_⟩
  rintro ⟨hm, hr⟩
  rcases hother with hm' | hr'
  · exact hm' hm
  · simp [hr] at hr'

end Sys2Proof.Machine
end

section
/-!
The image as the payload's bytes in order (41_framer.md R153, R155): a run of blocks stores its payload one byte after the
other, whatever its blocks are. Settles O34 and O35.
-/

namespace Sys2Proof.Machine

/-! ### Runs of instructions -/

theorem execAll_cons {i : Instr} {s t : State} (h : exec i s = .next t) (is : List Instr) :
    execAll (i :: is) s = execAll is t := by
  rw [execAll, h]

theorem execAll_append {is : List Instr} : ∀ {js : List Instr} {s t : State}, execAll js s = some t →
    execAll (js ++ is) s = execAll is t
  | [], _, _, h => by cases h; rfl
  | j :: js, s, t, h => by
    rw [List.cons_append]
    cases e : exec j s with
    | next u =>
      rw [execAll_cons e] at h ⊢
      exact execAll_append h
    | fault f => simp [execAll, e] at h
    | refused r => simp [execAll, e] at h

/-! ### The image while it grows -/

/-- What a payload byte is stored to: the image buffer, its length, and the sum over it. -/
structure Growing where
  img : Memory
  len : Word
  sum : Byte

/-- A byte is stored at the end and summed (R150). -/
def Growing.store (g : Growing) (b : Byte) : Growing :=
  { img := Memory.write none g.len.toNat b g.img, len := g.len + 1, sum := g.sum + b }

def Growing.storeAll (g : Growing) (bs : List Byte) : Growing := bs.foldl Growing.store g

theorem Growing.storeAll_append (g : Growing) (xs ys : List Byte) :
    g.storeAll (xs ++ ys) = (g.storeAll xs).storeAll ys := List.foldl_append

theorem Growing.storeAll_sum : ∀ (bs : List Byte) (g : Growing), (g.storeAll bs).sum = g.sum + bs.sum
  | [], g => by simp [storeAll]
  | b :: bs, g => by
    rw [List.sum_cons, ← add_assoc]
    exact storeAll_sum bs (g.store b)

theorem Growing.store_len {g : Growing} (b : Byte) (h : g.len.toNat + 1 < 2 ^ 32) :
    (g.store b).len.toNat = g.len.toNat + 1 := by
  rw [store, BitVec.toNat_add]
  exact Nat.mod_eq_of_lt h

theorem Growing.storeAll_len : ∀ (bs : List Byte) (g : Growing), g.len.toNat + bs.length < 2 ^ 32 →
    (g.storeAll bs).len.toNat = g.len.toNat + bs.length
  | [], _, _ => rfl
  | b :: bs, g, h => by
    rw [List.length_cons] at h ⊢
    have hlen := store_len (g := g) b (by omega)
    have ih := storeAll_len bs (g.store b) (by omega)
    rw [hlen] at ih
    exact ih.trans (by omega)

/-- Bytes below the old end and from the new end on are as before. -/
theorem Growing.lookup_storeAll_outside {a : Nat} : ∀ (bs : List Byte) (g : Growing),
    g.len.toNat + bs.length < 2 ^ 32 → a < g.len.toNat ∨ g.len.toNat + bs.length ≤ a →
    (g.storeAll bs).img.lookup a = g.img.lookup a
  | [], _, _, _ => rfl
  | b :: bs, g, h, ha => by
    rw [List.length_cons] at h ha
    have hlen := store_len (g := g) b (by omega)
    have ih := lookup_storeAll_outside (a := a) bs (g.store b) (by omega) (by omega)
    exact ih.trans (Memory.lookup_write_ne (by omega) none b g.img)

/-- Byte k of the payload is stored k places behind the old end. -/
theorem Growing.lookup_storeAll : ∀ (bs : List Byte) (g : Growing) (k : Nat), g.len.toNat + bs.length < 2 ^ 32 →
    k < bs.length → (g.storeAll bs).img.lookup (g.len.toNat + k) = some (bs.getD k 0)
  | [], _, _, _, hk => absurd hk (Nat.not_lt_zero _)
  | b :: bs, g, k, h, hk => by
    rw [List.length_cons] at h hk
    have hlen := store_len (g := g) b (by omega)
    cases k with
    | zero =>
      have hout := lookup_storeAll_outside (a := g.len.toNat) bs (g.store b) (by omega) (by omega)
      exact hout.trans (Memory.lookup_write_none _ b g.img)
    | succ k =>
      have ih := lookup_storeAll bs (g.store b) k (by omega) (by omega)
      rw [hlen, Nat.add_right_comm] at ih
      exact ih

/-! ### What a run of the framer has received -/

def State.growing (s : State) : Growing := ⟨s.img, s.fr.imageLen, s.fr.sum⟩

/-- From `s` to `t` the framer has consumed `n` bytes and stored `payload`. -/
structure Received (s t : State) (n : Nat) (payload : List Byte) : Prop where
  growing : t.growing = s.growing.storeAll payload
  consumed : t.fr.consumed = s.fr.consumed + BitVec.ofNat 32 n
  params : t.params = s.params
  epoch : t.epoch = s.epoch

theorem Received.refl (s : State) : Received s s 0 [] := ⟨rfl, (BitVec.add_zero _).symm, rfl, rfl⟩

theorem Received.trans {s t u : State} {m n : Nat} {xs ys : List Byte} (h : Received s t m xs)
    (h' : Received t u n ys) : Received s u (m + n) (xs ++ ys) where
  growing := by rw [h'.growing, h.growing, Growing.storeAll_append]
  consumed := by rw [h'.consumed, h.consumed, BitVec.ofNat_add, BitVec.add_assoc]
  params := h'.params.trans h.params
  epoch := h'.epoch.trans h.epoch

section
variable {s t : State} {n : Nat} {xs : List Byte} (h : Received s t n xs)
  (hroom : s.fr.imageLen.toNat + xs.length ≤ s.params.cap)
include hroom

/-- IMAGE_CAP is below 2^32, so that the length of an image that has room does not wrap. -/
theorem length_lt_of_room : s.growing.len.toNat + xs.length < 2 ^ 32 := by
  obtain ⟨_, _, _, _, _, _, _, _, hcap⟩ := params_bounds s.params
  have hlen : s.growing.len.toNat = s.fr.imageLen.toNat := rfl
  omega

include h

theorem Received.imageLen : t.fr.imageLen.toNat = s.fr.imageLen.toNat + xs.length := by
  have hlen := Growing.storeAll_len xs s.growing (length_lt_of_room hroom)
  rw [← h.growing] at hlen
  exact hlen

theorem Received.readImg_payload {k : Nat} (hk : k < xs.length) :
    t.readImg (s.fr.imageLen.toNat + k) = xs.getD k 0 := by
  have hl := Growing.lookup_storeAll xs s.growing k (length_lt_of_room hroom) hk
  rw [← h.growing] at hl
  have hl' : t.img.lookup (s.fr.imageLen.toNat + k) = some (xs.getD k 0) := hl
  rw [State.readImg, hl']

theorem Received.readImg_outside {a : Nat}
    (ha : a < s.fr.imageLen.toNat ∨ s.fr.imageLen.toNat + xs.length ≤ a) : t.readImg a = s.readImg a := by
  have hl := Growing.lookup_storeAll_outside xs s.growing (length_lt_of_room hroom) ha
  rw [← h.growing] at hl
  have hl' : t.img.lookup a = s.img.lookup a := hl
  rw [State.readImg, State.readImg, hl', h.epoch]

end

/-- Room for two payloads is room for the first, and, where it has been received, for the second. -/
theorem Received.room {s t : State} {n : Nat} {xs ys : List Byte} (h : Received s t n xs)
    (hroom : s.fr.imageLen.toNat + (xs ++ ys).length ≤ s.params.cap) :
    t.fr.imageLen.toNat + ys.length ≤ t.params.cap := by
  rw [List.length_append] at hroom
  rw [h.params, h.imageLen (by omega)]
  omega

/-! ### A block's payload -/

/-- `s` after payload bytes have been taken. -/
def State.payloadTaken (s : State) (bs : List Byte) : State := bs.foldl State.dataTaken s

theorem State.dataTaken_received (s : State) (b : Byte) : Received s (s.dataTaken b) 1 [b] := ⟨rfl, rfl, rfl, rfl⟩

theorem State.payloadTaken_received : ∀ (bs : List Byte) (s : State), Received s (s.payloadTaken bs) bs.length bs
  | [], s => .refl s
  | b :: bs, s => by
    rw [List.length_cons, Nat.add_comm]
    exact (s.dataTaken_received b).trans (payloadTaken_received bs (s.dataTaken b))

/-- Where the image has room for them all, no payload byte is an error. -/
theorem execAll_payload : ∀ (bs : List Byte) (s : State), s.fr.imageLen.toNat + bs.length ≤ s.params.cap →
    execAll (bs.map .blkData) s = some (s.payloadTaken bs)
  | [], _, _ => rfl
  | b :: bs, s, h => by
    have hfull : s.fr.imageLen.toNat ≠ s.params.cap := by
      rw [List.length_cons] at h
      omega
    exact (execAll_cons (i := .blkData b) (execBlkData_stored b hfull) _).trans
      (execAll_payload bs (s.dataTaken b) ((s.dataTaken_received b).room h))

/-- The last byte of a block leads to F_MARK, where a block without payload already is (R149, R150). -/
theorem State.payloadTaken_ctl : ∀ (bs : List Byte) (s : State), s.fr.blkRem.toNat = bs.length →
    s.ctl.fstate = (if bs = [] then .mark else .bdata) →
    (s.payloadTaken bs).ctl = { s.ctl with fstate := .mark }
  | [], s, _, hf => by
    rw [if_pos rfl] at hf
    rw [← hf]
    rfl
  | b :: bs, s, hrem, hf => by
    rw [if_neg (List.cons_ne_nil b bs)] at hf
    rw [List.length_cons] at hrem
    have hrem' : (s.dataTaken b).fr.blkRem.toNat = bs.length := by
      have : (s.dataTaken b).fr.blkRem = s.fr.blkRem - 1 := rfl
      bv_omega
    have hf' : (s.dataTaken b).ctl.fstate = (if bs = [] then .mark else .bdata) := by
      have hlast : s.fr.blkRem.toNat = 1 ↔ bs = [] := by
        rw [hrem, Nat.add_eq_right, List.length_eq_zero_iff]
      rw [← hf, ← if_congr hlast rfl rfl]
      rfl
    exact (payloadTaken_ctl bs (s.dataTaken b) hrem' hf').trans rfl

/-! ### Blocks -/

/-- `s` after a block's marker and its length byte have been taken (R148, R149). -/
def State.blockOpened (s : State) (n : Byte) : State :=
  let u := s.byteTaken.byteTaken
  { u with
    fr := { u.fr with blkLen := n, blkRem := n, blkCount := s.fr.blkCount + 1 }
    ctl := { s.ctl with fstate := if n = 0 then .mark else .bdata } }

theorem State.blockOpened_received (s : State) (n : Byte) : Received s (s.blockOpened n) 2 [] :=
  ⟨rfl, BitVec.add_assoc _ 1 1, rfl, rfl⟩

theorem execAll_blockInstrs (payload : List Byte) (s : State) : execAll (blockInstrs payload) s =
    execAll (payload.map .blkData) (s.blockOpened (BitVec.ofNat 8 payload.length)) := rfl

/-- A block from F_MARK to F_MARK. -/
theorem execAll_block {s : State} {payload : List Byte} (hf : s.ctl.fstate = .mark) (hlen : payload.length ≤ 250)
    (hroom : s.fr.imageLen.toNat + payload.length ≤ s.params.cap) :
    ∃ t, execAll (blockInstrs payload) s = some t ∧ Received s t (2 + payload.length) payload ∧ t.ctl = s.ctl := by
  have hrem : (BitVec.ofNat 8 payload.length).toNat = payload.length := by
    rw [BitVec.toNat_ofNat]
    exact Nat.mod_eq_of_lt (by omega)
  have hzero : BitVec.ofNat 8 payload.length = 0 ↔ payload = [] := by
    rw [← BitVec.toNat_inj, hrem]
    exact List.length_eq_zero_iff
  refine ⟨(s.blockOpened (BitVec.ofNat 8 payload.length)).payloadTaken payload, ?run, ?received, ?position⟩
  case run => exact (execAll_blockInstrs payload s).trans (execAll_payload payload _ hroom)
  case received => exact (s.blockOpened_received _).trans (State.payloadTaken_received payload _)
  case position =>
    rw [State.payloadTaken_ctl payload _ hrem (if_congr hzero rfl rfl), ← hf]
    rfl

/-- A sequence of blocks from F_MARK to F_MARK: its payloads joined, and two bytes more for each block. -/
theorem execAll_blocks : ∀ (xs : List (List Byte)) (s : State), s.ctl.fstate = .mark → (∀ x ∈ xs, x.length ≤ 250) →
    s.fr.imageLen.toNat + xs.flatten.length ≤ s.params.cap →
    ∃ t, execAll (xs.flatMap blockInstrs) s = some t ∧
      Received s t (2 * xs.length + xs.flatten.length) xs.flatten ∧ t.ctl = s.ctl
  | [], s, _, _, _ => ⟨s, rfl, .refl s, rfl⟩
  | x :: xs, s, hf, hlen, hroom => by
    rw [List.flatten_cons] at hroom ⊢
    obtain ⟨t, ht, hrec, hctl⟩ := execAll_block hf (hlen x List.mem_cons_self)
      (by rw [List.length_append] at hroom; omega)
    obtain ⟨u, hu, hrec', hctl'⟩ := execAll_blocks xs t (by rw [hctl, hf])
      (fun y hy => hlen y (List.mem_cons_of_mem x hy)) (hrec.room hroom)
    refine ⟨u, ?run, ?received, hctl'.trans hctl⟩
    case run => rw [List.flatMap_cons, execAll_append ht, hu]
    case received =>
      have hcount : 2 * (x :: xs).length + (x ++ xs.flatten).length =
          2 + x.length + (2 * xs.length + xs.flatten.length) := by
        rw [List.length_cons, List.length_append]
        omega
      rw [hcount]
      exact hrec.trans hrec'

/-- Settles O35: both runs store the same payload to the same image. -/
theorem blockSplitDoesNotMatter : Obligations.BlockSplitDoesNotMatter := by
  intro s xs ys hf hxs hys heq hroom
  obtain ⟨t, ht, hrec, hctl⟩ := execAll_blocks xs s hf hxs hroom
  obtain ⟨u, hu, hrec', hctl'⟩ := execAll_blocks ys s hf hys (heq ▸ hroom)
  have hsame : t.growing = u.growing := by rw [hrec.growing, hrec'.growing, heq]
  exact ⟨t, u, ht, hu, congrArg Growing.img hsame, congrArg Growing.len hsame, congrArg Growing.sum hsame, hctl, hctl',
    hrec.imageLen hroom, hrec.consumed, fun _ hk => hrec.readImg_payload hroom hk,
    fun _ ha => hrec.readImg_outside hroom ha⟩

/-! ### The checksum over the payload (R153) -/

/-- A checksum byte that raises no error is the checksum of the sum (R151). -/
theorem execCsum_fits {c : Byte} {s u : State} (h : execCsum c s = .next u) (hu : u.ctl.phase ≠ .error) :
    c = checksumOf s.fr.sum := by
  by_contra hne
  rw [execCsum_mismatch hne] at h
  cases h
  exact hu rfl

/-- Two payloads that differ in one byte have two sums. -/
theorem sum_ne_of_byte_ne {before after : List Byte} {b b' : Byte} (h : b ≠ b') :
    (before ++ b :: after).sum ≠ (before ++ b' :: after).sum := by
  simpa [List.sum_append] using h

/-- A run of payload bytes adds them to the sum. -/
theorem sum_of_payload {s t : State} {bs : List Byte} (hroom : s.fr.imageLen.toNat + bs.length ≤ s.params.cap)
    (h : execAll (bs.map .blkData) s = some t) : t.fr.sum = s.fr.sum + bs.sum := by
  rw [execAll_payload bs s hroom] at h
  cases h
  have hsum := congrArg Growing.sum (s.payloadTaken_received bs).growing
  rw [Growing.storeAll_sum] at hsum
  exact hsum

theorem word_of_byte_injective {a b : Byte} (h : a.setWidth 32 = b.setWidth 32) : a = b := by
  bv_omega

/-- Settles O34: the checksum is the negated sum, so that payloads of two sums have two checksums. -/
theorem checksumDetectsChangedByte : Obligations.ChecksumDetectsChangedByte := by
  rintro s t t' before after b b' c hb hroom ht ht' ⟨u, hu, hphase⟩
  have hroom' (x : Byte) : s.fr.imageLen.toNat + (before ++ x :: after).length ≤ s.params.cap := by
    rw [List.length_append, List.length_cons]
    omega
  have hfits : c = checksumOf t.fr.sum := execCsum_fits hu hphase
  have hsum : t.fr.sum ≠ t'.fr.sum := by
    rw [sum_of_payload (hroom' b) ht, sum_of_payload (hroom' b') ht']
    exact fun h => sum_ne_of_byte_ne hb (add_left_cancel h)
  have hne : c ≠ checksumOf t'.fr.sum := fun h => hsum (neg_injective (hfits.symm.trans h))
  refine ⟨_, execCsum_mismatch hne, rfl, rfl, rfl, fun h => hne (word_of_byte_injective h.symm)⟩

end Sys2Proof.Machine
end

section
/-!
What the engine's turn takes from the input port (41_framer.md R152; 60_exceptions.md R257): in phase FRAME the byte offered,
in every other phase nothing. Settles O33.
-/

namespace Sys2Proof.Machine

/-! ### The framer's turn -/

/-- From `s` to `t` one byte has been consumed, and an error entered names it. -/
def ConsumesOne (s t : State) : Prop :=
  t.fr.consumed = s.fr.consumed + 1 ∧ t.inp = { s.inp with valid := false } ∧
    (t.ctl.phase = .error → t.fr.consumed = t.err.offset + 1)

section
variable {s u : State} (hc : u.fr.consumed = s.fr.consumed + 1) (hi : u.inp = { s.inp with valid := false })
include hc hi

theorem ConsumesOne.accepted (hp : u.ctl.phase ≠ .error) : ConsumesOne s u := ⟨hc, hi, fun h => absurd h hp⟩

theorem ConsumesOne.inError (code : Byte) (x a : Word) : ConsumesOne s (u.inError code s.fr.consumed x a) :=
  ⟨hc, hi, fun _ => hc⟩

theorem ConsumesOne.raiseByte (e : ErrCode) (x : Word) (b : Byte) : ConsumesOne s (u.raiseByte e x b) := by
  rw [State.raiseByte_eq_inError hc]
  exact .inError hc hi _ _ _

end

section
variable {s : State} (b : Byte) (hp : s.ctl.phase ≠ .error)
include hp

theorem subj_byte_consumesOne : Ensures (ConsumesOne s) (exec (decodeByte .subj b) s) := by
  simp only [decodeByte]
  split
  · show Ensures _ (execSubjNul s)
    by_cases h : s.fr.hdrRem.toNat = 1
    · rw [execSubjNul_last h]
      exact .next (.inError rfl rfl _ _ _)
    · rw [execSubjNul_more h]
      exact .next (.accepted rfl rfl hp)
  · show Ensures _ (execSubjByte b s)
    rw [execSubjByte_eq]
    split
    · exact .next (.inError rfl rfl _ _ _)
    · exact .next (.accepted rfl rfl hp)

theorem execOffsDigit_consumesOne : Ensures (ConsumesOne s) (execOffsDigit b s) := by
  rcases Nat.lt_or_ge 0xFFFFFFFF (offsetWith s.fr.offsAcc b) with h | h
  · rw [execOffsDigit_overflow b h]
    exact .next (.inError rfl rfl _ _ _)
  · rw [execOffsDigit_fits b h]
    split
    · exact .next (.inError rfl rfl _ _ _)
    · exact .next (.accepted rfl rfl hp)

theorem execOffsNul_consumesOne : Ensures (ConsumesOne s) (execOffsNul s) := by
  by_cases hd : s.fr.offsNdig = 0
  · rw [execOffsNul_empty hd]
    exact .next (.inError rfl rfl _ _ _)
  · by_cases h : s.fr.hdrRem.toNat = 1
    · rw [execOffsNul_end hd h rfl]
      exact .next (.accepted rfl rfl hp)
    · rw [execOffsNul_early hd h]
      exact .next (.inError rfl rfl _ _ _)

theorem offs_byte_consumesOne : Ensures (ConsumesOne s) (exec (decodeByte .offs b) s) := by
  simp only [decodeByte]
  split_ifs
  · exact execOffsDigit_consumesOne b hp
  · exact execOffsNul_consumesOne hp
  · exact .next (.raiseByte rfl rfl _ _ _)

theorem execBlkData_consumesOne : Ensures (ConsumesOne s) (execBlkData b s) := by
  by_cases hfull : s.fr.imageLen.toNat = s.params.cap
  · rw [execBlkData_full b hfull]
    exact .next (.inError rfl rfl _ _ _)
  · rw [execBlkData_stored b hfull]
    exact .next (.accepted rfl rfl hp)

omit hp in
theorem execCsum_consumesOne : Ensures (ConsumesOne s) (execCsum b s) := by
  by_cases h : b = checksumOf s.fr.sum
  · by_cases hrun : s.ctl.mode = .run ∧ s.fr.resumed = false
    · rw [execCsum_decodes h hrun]
      exact .next (.accepted rfl rfl nofun)
    · rw [execCsum_completes h hrun]
      exact .next (.accepted rfl rfl nofun)
  · rw [execCsum_mismatch h]
    exact .next (.inError rfl rfl _ _ _)

theorem frame_byte_consumesOne (f : FState) : Ensures (ConsumesOne s) (exec (decodeByte f b) s) := by
  cases f with
  | soh | rstx | rlen | blen =>
    simp only [decodeByte]
    split
    · exact .next (.accepted rfl rfl hp)
    · exact .next (.raiseByte rfl rfl _ _ _)
  | hlen =>
    simp only [decodeByte]
    split
    · exact .next (.raiseByte rfl rfl _ _ _)
    · exact .next (.accepted rfl rfl hp)
  | mark =>
    simp only [decodeByte]
    split_ifs
    · exact .next (.accepted rfl rfl hp)
    · exact .next (.accepted rfl rfl hp)
    · exact .next (.raiseByte rfl rfl _ _ _)
  | subj => exact subj_byte_consumesOne b hp
  | offs => exact offs_byte_consumesOne b hp
  | lead =>
    show Ensures _ (execLeadByte b s)
    rw [execLeadByte_eq]
    exact .next (.accepted rfl rfl hp)
  | bdata => exact execBlkData_consumesOne b hp
  | csum => exact execCsum_consumesOne b

end

/-! ### The other turns -/

/-- `t` has the framer's registers and the input port of `s`. -/
def KeepsInput (s t : State) : Prop := t.fr = s.fr ∧ t.inp = s.inp

theorem KeepsInput.refl (s : State) : KeepsInput s s := ⟨rfl, rfl⟩

theorem State.takeSymbol_keepsInput {s t : State} {c : Nat} (h : s.takeSymbol c = some t) : KeepsInput s t := by
  unfold State.takeSymbol at h
  split at h
  · cases h
  · cases h
    exact ⟨rfl, rfl⟩

theorem execLit_keepsInput (c : Byte) (s : State) : Ensures (KeepsInput s) (execLit c s) := by
  unfold execLit
  split
  · exact ensures_fault _ _
  · next h =>
    obtain ⟨hfr, hinp⟩ := State.takeSymbol_keepsInput h
    exact .next ⟨hfr, hinp⟩

theorem execMatchSym_keepsInput (m : Byte) (s : State) : Ensures (KeepsInput s) (execMatchSym m s) := by
  unfold execMatchSym
  split
  · exact ensures_fault _ _
  · next h =>
    obtain ⟨hfr, hinp⟩ := State.takeSymbol_keepsInput h
    exact .next ⟨hfr, hinp⟩

theorem symTurn_keepsInput (s : State) : Ensures (KeepsInput s) (symTurn s) := by
  unfold symTurn
  split_ifs
  · exact .next (.refl s)
  · exact .next ⟨rfl, rfl⟩
  · exact .next ⟨rfl, rfl⟩
  · exact .next ⟨rfl, rfl⟩
  · split
    · exact ensures_fault _ _
    · next hw =>
      obtain ⟨k, rfl⟩ := State.walk_truncated hw
      exact .next ⟨rfl, rfl⟩
    · next c u hw =>
      obtain ⟨k, rfl⟩ := State.walk_leaf hw
      split
      · rcases runWord_symbol_cases (BitVec.ofNat 9 c) (s.atBit k) with ⟨c, e⟩ | ⟨m, e⟩ | ⟨r, e⟩ <;> rw [e]
        · exact execLit_keepsInput c (s.atBit k)
        · exact execMatchSym_keepsInput m (s.atBit k)
        · exact ensures_refused _ _
      · exact ensures_fault _ _

theorem State.position_keepsInput (s : State) (hi extra : Nat) (x : Byte) : KeepsInput s (s.position hi extra x) := by
  unfold State.position State.decodePosition
  cases e : State.getBits extra x.toNat s with
  | error u =>
    obtain ⟨k, rfl⟩ := State.getBits_error_atBit e
    exact ⟨rfl, rfl⟩
  | ok r =>
    obtain ⟨v, u⟩ := r
    obtain ⟨rfl, _⟩ := State.getBits_ok e
    simp only
    split <;> exact ⟨rfl, rfl⟩

theorem posTurn_keepsInput (s : State) : Ensures (KeepsInput s) (posTurn s) := by
  unfold posTurn
  split
  · next u e =>
    obtain ⟨k, rfl⟩ := State.getBits_error_atBit e
    exact .next ⟨rfl, rfl⟩
  · next x u e =>
    obtain ⟨rfl, _⟩ := State.getBits_ok e
    rw [runWord_of_decode rfl, exec_decodePos_eq]
    exact .next (State.position_keepsInput (s.atBit _) _ _ _)

theorem stepEnv_keepsInput (s : State) : KeepsInput s (stepEnv s) := by
  unfold stepEnv
  split <;> exact ⟨rfl, rfl⟩

theorem stepCopy_keepsInput (s : State) : KeepsInput s (stepCopy s) := by
  simp only [stepCopy]
  split_ifs <;> exact ⟨rfl, rfl⟩

theorem stepCheck_keepsInput (s : State) : KeepsInput s (stepCheck s) := by
  simp only [stepCheck]
  split_ifs <;> exact ⟨rfl, rfl⟩

theorem engineTurn_keepsInput {s : State} (h : s.ctl.phase ≠ .frame) : Ensures (KeepsInput s) (engineTurn s) := by
  cases hp : s.ctl.phase with
  | idle => rw [engineTurn_idle hp]; exact .next (.refl s)
  | done => rw [engineTurn_done hp]; exact .next (.refl s)
  | error => rw [engineTurn_error hp]; exact .next (.refl s)
  | frame => exact absurd hp h
  | check => rw [engineTurn_check hp]; exact .next (stepCheck_keepsInput s)
  | decode =>
    cases hd : s.ctl.dstate with
    | env => rw [engineTurn_env hp hd]; exact .next (stepEnv_keepsInput s)
    | init => rw [engineTurn_init hp hd]; exact .next ⟨rfl, rfl⟩
    | sym => rw [engineTurn_sym hp hd]; exact symTurn_keepsInput s
    | pos => rw [engineTurn_pos hp hd]; exact posTurn_keepsInput s
    | copy => rw [engineTurn_copy hp hd]; exact .next (stepCopy_keepsInput s)

/-- Settles O33. -/
theorem framerConsumesOneByte : Obligations.FramerConsumesOneByte := by
  intro s e t hturn ht
  rw [step_eq_engineTurn hturn] at ht
  refine ⟨fun hp hv => ?offered, fun hp hv => ?starved, fun hp => ?other⟩
  case offered =>
    rw [engineTurn_frame hp, frameTurn_offered hv, runWord_frame] at ht
    exact frame_byte_consumesOne _ (by simp [hp]) _ t ht
  case starved =>
    rw [engineTurn_frame hp] at ht
    cases hend : e.inp.ended with
    | true =>
      rw [frameTurn_ended hv hend] at ht
      cases ht
      exact ⟨rfl, rfl, fun _ => rfl⟩
    | false =>
      rw [frameTurn_waits hv hend] at ht
      cases ht
      exact ⟨rfl, rfl, fun herr => by simp [hp] at herr⟩
  case other =>
    obtain ⟨hfr, hinp⟩ := engineTurn_keepsInput hp t ht
    exact ⟨congrArg FramerRegs.consumed hfr, hinp⟩

end Sys2Proof.Machine
end

section
/-!
Every step keeps a tree in the tables where the decoder reads them (42_lzhuf.md R185, R190): INIT builds one, every symbol's
update keeps it, and no other step writes the tables or leads to where they are read. Settles O59.
-/

namespace Sys2Proof.Machine

/-! ### The tables' readers -/

/-- The positions of the decoder at which the tables hold a tree. -/
def ReadsTables (c : Ctl) : Prop := c.phase = .decode ∧ (c.dstate = .sym ∨ c.dstate = .pos ∨ c.dstate = .copy)

theorem treeReady_of_tree {s : State} (h : TreeSound s.params s.huff) : s.treeReady := fun _ _ => h

theorem treeReady_of_not_reads {s : State} (h : ¬ ReadsTables s.ctl) : s.treeReady := fun hp hd => absurd ⟨hp, hd⟩ h

theorem treeReady_of_phase {s : State} (h : s.ctl.phase ≠ .decode) : s.treeReady := fun hp => absurd hp h

/-- The condition reads the control state, the tables and the parameters alone. -/
theorem State.treeReady.congr {s t : State} (hs : s.treeReady) (hc : t.ctl = s.ctl) (hh : t.huff = s.huff)
    (hp : t.params = s.params) : t.treeReady := by
  unfold State.treeReady
  rw [hc, hh, hp]
  exact hs

/-! ### The host's steps and the moves of the other agents -/

theorem State.storeImgData_parts (s : State) (b : Byte) : (s.storeImgData b).ctl = s.ctl ∧
    (s.storeImgData b).env = s.env ∧ (s.storeImgData b).dec = s.dec ∧ (s.storeImgData b).huff = s.huff ∧
      (s.storeImgData b).params = s.params := by
  unfold State.storeImgData
  split <;> exact ⟨rfl, rfl, rfl, rfl, rfl⟩

/-- A start command begins at FRAME or at the decoder's D_ENV, before the tables are read. -/
theorem HostEffect.treeReady {s t : State} (h : HostEffect s t) (hs : s.treeReady) : t.treeReady := by
  cases h with
  | regs h v => exact hs.congr rfl rfl rfl
  | imageLen v _ _ => exact hs.congr rfl rfl rfl
  | imgData b _ =>
    obtain ⟨hc, _, _, hh, hp⟩ := s.storeImgData_parts b
    exact hs.congr hc hh hp
  | start keep mode phase hb _ =>
    rw [State.start_idle hb]
    exact treeReady_of_not_reads (by simp [ReadsTables])
  | abort _ => exact treeReady_of_phase (by simp)
  | clear _ => exact treeReady_of_phase (by simp)

theorem runMove_treeReady {m : Move} {s : State} (hm : m ≠ .engine) (hs : s.treeReady) :
    Ensures State.treeReady (runMove m s) := by
  cases m with
  | host op => exact fun t ht => (runWord_hostEffect op s t ht).treeReady hs
  | push b => exact .next (hs.congr rfl rfl rfl)
  | endInput => exact .next (hs.congr rfl rfl rfl)
  | clearEnd => exact .next (hs.congr rfl rfl rfl)
  | take => exact .next (hs.congr rfl rfl rfl)
  | engine => exact absurd rfl hm
  | reset => exact .next (treeReady_of_phase (s := s.resetBlock) nofun)

/-! ### What the framer leaves of the decoder -/

/-- From `s` to `t` the envelope's and the decoder's registers are kept, and the run goes on framing, ends, or comes to the
decoder's first position. -/
def FramesOn (s t : State) : Prop :=
  t.env = s.env ∧ t.dec = s.dec ∧
    (t.ctl.phase = .frame ∨ t.ctl.phase = .error ∨ t.ctl.phase = .done ∨
      (t.ctl.phase = .decode ∧ t.ctl.dstate = .env))

section
variable {s t : State} (he : t.env = s.env) (hd : t.dec = s.dec)
include he hd

theorem FramesOn.frame (hp : t.ctl.phase = .frame) : FramesOn s t := ⟨he, hd, .inl hp⟩

theorem FramesOn.error (hp : t.ctl.phase = .error) : FramesOn s t := ⟨he, hd, .inr (.inl hp)⟩

end

section
variable {s : State} (b : Byte)

/-- The checksum byte ends the framing (R151). -/
theorem execCsum_framesOn : Ensures (FramesOn s) (execCsum b s) := by
  by_cases h : b = checksumOf s.fr.sum
  · by_cases hrun : s.ctl.mode = .run ∧ s.fr.resumed = false
    · rw [execCsum_decodes h hrun]
      exact .next ⟨rfl, rfl, .inr (.inr (.inr ⟨rfl, rfl⟩))⟩
    · rw [execCsum_completes h hrun]
      exact .next ⟨rfl, rfl, .inr (.inr (.inl rfl))⟩
  · rw [execCsum_mismatch h]
    exact .next (.error rfl rfl rfl)

variable (hp : s.ctl.phase = .frame)
include hp

theorem subj_byte_framesOn : Ensures (FramesOn s) (exec (decodeByte .subj b) s) := by
  simp only [decodeByte]
  split
  · show Ensures _ (execSubjNul s)
    by_cases h : s.fr.hdrRem.toNat = 1
    · rw [execSubjNul_last h]
      exact .next (.error rfl rfl rfl)
    · rw [execSubjNul_more h]
      exact .next (.frame rfl rfl hp)
  · show Ensures _ (execSubjByte b s)
    rw [execSubjByte_eq]
    split
    · exact .next (.error rfl rfl rfl)
    · exact .next (.frame rfl rfl hp)

theorem execOffsDigit_framesOn : Ensures (FramesOn s) (execOffsDigit b s) := by
  rcases Nat.lt_or_ge 0xFFFFFFFF (offsetWith s.fr.offsAcc b) with h | h
  · rw [execOffsDigit_overflow b h]
    exact .next (.error rfl rfl rfl)
  · rw [execOffsDigit_fits b h]
    split
    · exact .next (.error rfl rfl rfl)
    · exact .next (.frame rfl rfl hp)

theorem execOffsNul_framesOn : Ensures (FramesOn s) (execOffsNul s) := by
  by_cases hd : s.fr.offsNdig = 0
  · rw [execOffsNul_empty hd]
    exact .next (.error rfl rfl rfl)
  · by_cases h : s.fr.hdrRem.toNat = 1
    · rw [execOffsNul_end hd h rfl]
      exact .next (.frame rfl rfl hp)
    · rw [execOffsNul_early hd h]
      exact .next (.error rfl rfl rfl)

theorem execBlkData_framesOn : Ensures (FramesOn s) (execBlkData b s) := by
  by_cases hfull : s.fr.imageLen.toNat = s.params.cap
  · rw [execBlkData_full b hfull]
    exact .next (.error rfl rfl rfl)
  · rw [execBlkData_stored b hfull]
    exact .next (.frame rfl rfl hp)

theorem frame_byte_framesOn (f : FState) : Ensures (FramesOn s) (exec (decodeByte f b) s) := by
  cases f with
  | soh | rstx | rlen | blen =>
    simp only [decodeByte]
    split
    · exact .next (.frame rfl rfl hp)
    · exact .next (.error rfl rfl rfl)
  | hlen =>
    simp only [decodeByte]
    split
    · exact .next (.error rfl rfl rfl)
    · exact .next (.frame rfl rfl hp)
  | mark =>
    simp only [decodeByte]
    split_ifs
    · exact .next (.frame rfl rfl hp)
    · exact .next (.frame rfl rfl hp)
    · exact .next (.error rfl rfl rfl)
  | subj => exact subj_byte_framesOn b hp
  | offs =>
    simp only [decodeByte]
    split_ifs
    · exact execOffsDigit_framesOn b hp
    · exact execOffsNul_framesOn hp
    · exact .next (.error rfl rfl rfl)
  | lead =>
    show Ensures _ (execLeadByte b s)
    rw [execLeadByte_eq]
    exact .next (.frame rfl rfl hp)
  | bdata => exact execBlkData_framesOn b hp
  | csum => exact execCsum_framesOn b

theorem frameTurn_framesOn : Ensures (FramesOn s) (frameTurn s) := by
  unfold frameTurn
  split
  · rw [runWord_frame]
    exact frame_byte_framesOn _ hp _
  · split
    · exact .next (.error rfl rfl rfl)
    · exact .next (.frame rfl rfl hp)

end

theorem FramesOn.treeReady {s t : State} (h : FramesOn s t) : t.treeReady := by
  obtain ⟨_, _, hp | hp | hp | ⟨_, hd⟩⟩ := h
  · exact treeReady_of_phase (by simp [hp])
  · exact treeReady_of_phase (by simp [hp])
  · exact treeReady_of_phase (by simp [hp])
  · exact treeReady_of_not_reads (by simp [ReadsTables, hd])

/-! ### The decoder's steps -/

/-- What a decoded symbol of the alphabet leaves on a tree: another tree, and `sym` (R189, R190). -/
theorem State.takeSymbol_tree {s t : State} {c : Nat} (ts : TreeSound s.params s.huff) (hc : c < s.params.nChar)
    (e : s.takeSymbol c = some t) : TreeSound t.params t.huff := by
  obtain ⟨h, eh, th⟩ := ts.update_spec hc
  simp only [State.takeSymbol, eh, Option.some.injEq] at e
  subst e
  exact th

section
variable {s : State} (ts : TreeSound s.params s.huff)
include ts

theorem execLit_treeReady (c : Byte) : Ensures State.treeReady (execLit c s) := by
  have ha := params_alphabet s.params
  have hc := c.isLt
  unfold execLit
  split
  · exact ensures_fault _ _
  · next t e =>
    have hlt : c.toNat < s.params.nChar := by omega
    have ht := State.takeSymbol_tree ts hlt e
    exact .next (treeReady_of_tree (s := t.output c) ht)

theorem execMatchSym_treeReady (m : Byte) : Ensures State.treeReady (execMatchSym m s) := by
  unfold execMatchSym
  split
  · exact ensures_fault _ _
  · next t e =>
    obtain ⟨hc, _⟩ := State.takeSymbol_spec ts.prnt_length e
    have ht := State.takeSymbol_tree ts hc e
    exact .next (treeReady_of_tree (s := t.gotoD .pos) ht)

theorem symTurn_treeReady : Ensures State.treeReady (symTurn s) := by
  have hs : s.treeReady := treeReady_of_tree ts
  unfold symTurn
  split_ifs
  · exact .next hs
  · exact .next (treeReady_of_phase nofun)
  · exact .next (treeReady_of_phase (by simp))
  · exact .next (treeReady_of_phase (by simp))
  · split
    · exact ensures_fault _ _
    · exact .next (treeReady_of_phase (by simp [State.raiseTruncatedBitstream]))
    · next c u hw =>
      obtain ⟨k, rfl⟩ := State.walk_leaf hw
      split
      · rcases runWord_symbol_cases (BitVec.ofNat 9 c) (s.atBit k) with ⟨c, e⟩ | ⟨m, e⟩ | ⟨r, e⟩ <;> rw [e]
        · exact execLit_treeReady (s := s.atBit k) ts c
        · exact execMatchSym_treeReady (s := s.atBit k) ts m
        · exact ensures_refused _ _
      · exact ensures_fault _ _

end

/-- The tables and the parameters are the same. -/
def KeepsTables (s t : State) : Prop := t.huff = s.huff ∧ t.params = s.params

theorem KeepsTables.treeReady {s t : State} (h : KeepsTables s t) (ts : TreeSound s.params s.huff) : t.treeReady := by
  obtain ⟨hh, hp⟩ := h
  exact treeReady_of_tree (by rw [hh, hp]; exact ts)

theorem State.position_keepsTables (s : State) (hi extra : Nat) (x : Byte) : KeepsTables s (s.position hi extra x) := by
  unfold State.position State.decodePosition
  cases e : State.getBits extra x.toNat s with
  | error u =>
    obtain ⟨k, rfl⟩ := State.getBits_error_atBit e
    exact ⟨rfl, rfl⟩
  | ok r =>
    obtain ⟨v, u⟩ := r
    obtain ⟨rfl, _⟩ := State.getBits_ok e
    simp only
    split <;> exact ⟨rfl, rfl⟩

theorem posTurn_keepsTables (s : State) : Ensures (KeepsTables s) (posTurn s) := by
  unfold posTurn
  split
  · next u e =>
    obtain ⟨k, rfl⟩ := State.getBits_error_atBit e
    exact .next ⟨rfl, rfl⟩
  · next x u e =>
    obtain ⟨rfl, _⟩ := State.getBits_ok e
    rw [runWord_of_decode rfl, exec_decodePos_eq]
    exact .next (State.position_keepsTables (s.atBit _) _ _ _)

theorem stepCopy_keepsTables (s : State) : KeepsTables s (stepCopy s) := by
  simp only [stepCopy]
  split_ifs <;> exact ⟨rfl, rfl⟩

theorem stepEnv_treeReady {s : State} : (stepEnv s).treeReady := by
  unfold stepEnv
  split
  · exact treeReady_of_phase (by simp)
  · exact treeReady_of_not_reads (by simp [ReadsTables])

theorem stepCheck_treeReady {s : State} (hp : s.ctl.phase = .check) : (stepCheck s).treeReady := by
  simp only [stepCheck]
  split_ifs
  · exact treeReady_of_phase (by simp [hp])
  · exact treeReady_of_phase (by simp)
  · exact treeReady_of_phase (by simp)

/-! ### The engine's turn and the step -/

theorem engineTurn_treeReady {s : State} (hs : s.treeReady) : Ensures State.treeReady (engineTurn s) := by
  cases hp : s.ctl.phase with
  | idle => rw [engineTurn_idle hp]; exact .next hs
  | done => rw [engineTurn_done hp]; exact .next hs
  | error => rw [engineTurn_error hp]; exact .next hs
  | frame => rw [engineTurn_frame hp]; exact fun t ht => (frameTurn_framesOn hp t ht).treeReady
  | check => rw [engineTurn_check hp]; exact .next (stepCheck_treeReady hp)
  | decode =>
    cases hd : s.ctl.dstate with
    | env => rw [engineTurn_env hp hd]; exact .next stepEnv_treeReady
    | init => rw [engineTurn_init hp hd]; exact .next (treeReady_of_tree (startHuff_treeSound s.params))
    | sym => rw [engineTurn_sym hp hd]; exact symTurn_treeReady (hs hp (.inl hd))
    | pos =>
      rw [engineTurn_pos hp hd]
      exact fun t ht => (posTurn_keepsTables s t ht).treeReady (hs hp (.inr (.inl hd)))
    | copy =>
      rw [engineTurn_copy hp hd]
      exact .next ((stepCopy_keepsTables s).treeReady (hs hp (.inr (.inr hd))))

/-- Settles O59. -/
theorem stepKeepsTreeReady : Obligations.StepKeepsTreeReady := by
  intro s t hs
  have hs' (rest : List Move) : ({ s with agenda := rest } : State).treeReady := hs.congr rfl rfl rfl
  exact step_ensures (fun e he => engineTurn_treeReady (he.inherits hs'))
    (fun m rest _ hm => runMove_treeReady hm (hs' rest)) t

end Sys2Proof.Machine
end

section
/-!
Every step keeps the decoder's progress (42_lzhuf.md R197, R198), phase by phase. Settles O56.
-/

namespace Sys2Proof.Machine

/-! ### The progress by phase -/

/-- The progress reads the control state, image_len, the envelope's and the decoder's registers and the parameters. -/
theorem State.progressOk.congr {s t : State} (h : s.progressOk) (hc : t.ctl = s.ctl)
    (hl : t.fr.imageLen = s.fr.imageLen) (he : t.env = s.env) (hd : t.dec = s.dec) (hp : t.params = s.params) :
    t.progressOk := by
  unfold State.progressOk State.decoding State.bodyBits
  rw [hc, hl, he, hd, hp]
  exact h

/-- Wherever a run is, no byte has left the decoder beyond declared_len. -/
theorem State.progressOk.outCount_le {s : State} (h : s.progressOk) :
    s.dec.outCount.toNat ≤ s.env.declaredLen.toNat := by
  unfold State.progressOk at h
  have none_out (h0 : s.dec.outCount = 0) : s.dec.outCount.toNat ≤ s.env.declaredLen.toNat := by
    rw [h0]
    exact Nat.zero_le _
  have all_out (h1 : s.dec.outCount = s.env.declaredLen) : s.dec.outCount.toNat ≤ s.env.declaredLen.toNat := by
    rw [h1]
  cases hp : s.ctl.phase <;> rw [hp] at h
  case idle | error => exact h
  case frame => exact none_out h.1
  case check => exact all_out h.2
  case done =>
    obtain ⟨hdec, hframed⟩ := h
    cases hv : s.env.valid with
    | true => exact all_out (hdec hv)
    | false => exact none_out (hframed hv)
  case decode =>
    cases hd : s.ctl.dstate <;> simp only [hd] at h
    case env | init => exact none_out h.1
    case sym | pos | copy =>
      obtain ⟨_, _, _, hle, _⟩ := h
      exact hle

theorem progressOk_of_error {s : State} (hp : s.ctl.phase = .error)
    (h : s.dec.outCount.toNat ≤ s.env.declaredLen.toNat) : s.progressOk := by
  unfold State.progressOk
  rw [hp]
  exact h

theorem progressOk_of_idle {s : State} (hp : s.ctl.phase = .idle)
    (h : s.dec.outCount.toNat ≤ s.env.declaredLen.toNat) : s.progressOk := by
  unfold State.progressOk
  rw [hp]
  exact h

theorem progressOk_frame_iff {s : State} (hp : s.ctl.phase = .frame) :
    s.progressOk ↔ s.dec.outCount = 0 ∧ s.env.valid = false := by
  unfold State.progressOk
  rw [hp]

theorem progressOk_check_iff {s : State} (hp : s.ctl.phase = .check) :
    s.progressOk ↔ s.env.valid = true ∧ s.dec.outCount = s.env.declaredLen := by
  unfold State.progressOk
  rw [hp]

theorem progressOk_done_iff {s : State} (hp : s.ctl.phase = .done) :
    s.progressOk ↔ (s.env.valid = true → s.dec.outCount = s.env.declaredLen) ∧
      (s.env.valid = false → s.dec.outCount = 0) := by
  unfold State.progressOk
  rw [hp]

theorem progressOk_env_iff {s : State} (hp : s.ctl.phase = .decode) (hd : s.ctl.dstate = .env) :
    s.progressOk ↔ s.dec.outCount = 0 ∧ s.env.valid = false := by
  unfold State.progressOk
  rw [hp, hd]

theorem progressOk_init_iff {s : State} (hp : s.ctl.phase = .decode) (hd : s.ctl.dstate = .init) :
    s.progressOk ↔ s.dec.outCount = 0 ∧ s.env.valid = true ∧ s.dec.bitpos = 0 ∧ 6 ≤ s.fr.imageLen.toNat := by
  unfold State.progressOk
  rw [hp, hd]

theorem progressOk_decoding_iff {s : State} (h : ReadsTables s.ctl) : s.progressOk ↔ s.decoding := by
  obtain ⟨hp, hd | hd | hd⟩ := h <;> unfold State.progressOk <;> rw [hp, hd]

theorem progressOk_of_init {s : State} (hp : s.ctl.phase = .decode) (hd : s.ctl.dstate = .init)
    (h : s.dec.outCount = 0 ∧ s.env.valid = true ∧ s.dec.bitpos = 0 ∧ 6 ≤ s.fr.imageLen.toNat) : s.progressOk :=
  (progressOk_init_iff hp hd).2 h

theorem progressOk_of_decoding {s : State} (hr : ReadsTables s.ctl) (h : s.decoding) : s.progressOk :=
  (progressOk_decoding_iff hr).2 h

/-- A run that decodes with all its bytes out may complete (R197). -/
theorem progressOk_of_complete {s t : State} (h : s.env.valid = true ∧ s.dec.outCount = s.env.declaredLen)
    (hp : t.ctl.phase = .done) (he : t.env = s.env) (hd : t.dec.outCount = s.dec.outCount) : t.progressOk := by
  obtain ⟨hv, hc⟩ := h
  rw [progressOk_done_iff hp, he, hd]
  exact ⟨fun _ => hc, fun hv' => absurd (hv.symm.trans hv') nofun⟩

/-! ### The host's steps and the moves of the other agents -/

theorem progressOk_of_rest {s t : State} (hb : s.busy = false) (hs : s.progressOk) (hc : t.ctl = s.ctl)
    (he : t.env = s.env) (hd : t.dec = s.dec) : t.progressOk := by
  unfold State.progressOk at hs ⊢
  rw [hc, he, hd]
  cases hp : s.ctl.phase with
  | idle | done | error => rw [hp] at hs; exact hs
  | frame | decode | check => simp [State.busy, hp] at hb

theorem HostEffect.progressOk {s t : State} (h : HostEffect s t) (hs : s.progressOk) : t.progressOk := by
  cases h with
  | regs h v => exact hs.congr rfl rfl rfl rfl rfl
  | imageLen v hb _ => exact progressOk_of_rest hb hs rfl rfl rfl
  | imgData b hb =>
    obtain ⟨hc, he, hd, _⟩ := s.storeImgData_parts b
    exact progressOk_of_rest hb hs hc he hd
  | start keep mode phase hb hp =>
    rw [State.start_idle hb]
    rcases hp with rfl | rfl
    · exact (progressOk_frame_iff rfl).2 ⟨rfl, rfl⟩
    · exact (progressOk_env_iff rfl rfl).2 ⟨rfl, rfl⟩
  | abort _ => exact progressOk_of_error rfl hs.outCount_le
  | clear _ => exact progressOk_of_idle rfl hs.outCount_le

theorem runMove_progressOk {m : Move} {s : State} (hm : m ≠ .engine) (hs : s.progressOk) :
    Ensures State.progressOk (runMove m s) := by
  cases m with
  | host op => exact fun t ht => (runWord_hostEffect op s t ht).progressOk hs
  | push b => exact .next (hs.congr rfl rfl rfl rfl rfl)
  | endInput => exact .next (hs.congr rfl rfl rfl rfl rfl)
  | clearEnd => exact .next (hs.congr rfl rfl rfl rfl rfl)
  | take => exact .next (hs.congr rfl rfl rfl rfl rfl)
  | engine => exact absurd rfl hm
  | reset => exact .next (progressOk_of_idle (s := s.resetBlock) rfl (Nat.zero_le _))

/-! ### The framer -/

/-- While the framer runs no byte is out and no envelope is read. -/
theorem FramesOn.progressOk {s t : State} (h : FramesOn s t) (hp : s.ctl.phase = .frame) (hs : s.progressOk) :
    t.progressOk := by
  obtain ⟨he, hd, ht⟩ := h
  obtain ⟨h0, hv⟩ := (progressOk_frame_iff hp).1 hs
  rw [← hd] at h0
  rw [← he] at hv
  rcases ht with ht | ht | ht | ⟨ht, ht'⟩
  · exact (progressOk_frame_iff ht).2 ⟨h0, hv⟩
  · exact progressOk_of_error ht (by rw [h0]; exact Nat.zero_le _)
  · exact (progressOk_done_iff ht).2 ⟨fun hv' => absurd (hv.symm.trans hv') nofun, fun _ => h0⟩
  · exact (progressOk_env_iff ht ht').2 ⟨h0, hv⟩

/-! ### The decoder's steps (42_lzhuf.md R180 to R196; 43_integrity.md R234) -/

theorem stepEnv_progressOk {s : State} (hp : s.ctl.phase = .decode) (hd : s.ctl.dstate = .env) (hs : s.progressOk) :
    (stepEnv s).progressOk := by
  unfold stepEnv
  split
  · exact progressOk_of_error rfl hs.outCount_le
  · next h6 => exact progressOk_of_init hp rfl ⟨((progressOk_env_iff hp hd).1 hs).1, rfl, rfl, Nat.not_lt.1 h6⟩

/-- With no byte out, wpos is N − F (R185). -/
theorem stepInit_progressOk {s : State} (hp : s.ctl.phase = .decode) (hd : s.ctl.dstate = .init) (hs : s.progressOk) :
    (stepInit s).progressOk := by
  obtain ⟨h0, hv, hb, h6⟩ := (progressOk_init_iff hp hd).1 hs
  refine progressOk_of_decoding ⟨hp, .inl rfl⟩ ⟨hv, h6, ?bits, ?out, ?wpos⟩
  case bits => exact hb.le.trans (Nat.zero_le _)
  case out => exact hs.outCount_le
  case wpos =>
    have h0' : (stepInit s).dec.outCount = 0 := h0
    rw [h0']
    exact histIndex_toNat _ _

/-- A byte more below declared_len: wpos and the count move on together (R197). -/
theorem State.decoding.output {s : State} (h : s.decoding) (hne : s.dec.outCount ≠ s.env.declaredLen) (b : Byte) :
    (s.output b).decoding := by
  obtain ⟨hv, h6, hb, hle, hw⟩ := h
  have hlt : s.dec.outCount.toNat < s.env.declaredLen.toNat :=
    Nat.lt_of_le_of_ne hle fun e => hne (BitVec.eq_of_toNat_eq e)
  have hcount : (s.dec.outCount + 1).toNat = s.dec.outCount.toNat + 1 := by
    have := s.env.declaredLen.isLt
    exact BitVec.toNat_add_of_lt (by show s.dec.outCount.toNat + 1 < _; omega)
  refine ⟨hv, h6, hb, ?out, ?wpos⟩
  case out =>
    show (s.dec.outCount + 1).toNat ≤ _
    rw [hcount]
    exact hlt
  case wpos =>
    show (histIndex s.params (s.dec.wpos.toNat + 1)).toNat = (_ + (s.dec.outCount + 1).toNat) % s.params.N
    rw [histIndex_toNat, hcount, hw, Nat.mod_add_mod, Nat.add_assoc]
    rfl

theorem State.decoding.atBit {s : State} (h : s.decoding) {k : Nat} (hk : k ≤ s.bodyBits) : (s.atBit k).decoding := by
  obtain ⟨hv, h6, _, hle, hw⟩ := h
  exact ⟨hv, h6, hk, hle, hw⟩

/-- A decoded symbol changes the tables and `sym` alone. -/
theorem State.takeSymbol_eq {s t : State} {c : Nat} (e : s.takeSymbol c = some t) :
    ∃ h, t = { s with huff := h, dec := { s.dec with sym := BitVec.ofNat 16 c } } := by
  unfold State.takeSymbol at e
  split at e
  · cases e
  · next h _ =>
    cases e
    exact ⟨h, rfl⟩

/-- The walk reads no bit beyond the body (R191, R198). -/
theorem State.walk_leaf_le {s u : State} {c : Nat} (hb : s.dec.bitpos ≤ s.bodyBits) (hw : s.walk = .leaf c u) :
    ∃ k, k ≤ s.bodyBits ∧ u = s.atBit k := by
  unfold State.walk at hw
  split at hw
  · cases hw
  · obtain ⟨j, hj, e⟩ := walkFrom_leaf hw
    exact ⟨_, by omega, e⟩

section
variable {s : State} (hp : s.ctl.phase = .decode) (h : s.decoding)
include hp h

theorem execLit_progressOk (c : Byte) (hd : s.ctl.dstate = .sym) (hne : s.dec.outCount ≠ s.env.declaredLen) :
    Ensures State.progressOk (execLit c s) := by
  unfold execLit
  split
  · exact ensures_fault _ _
  · next e =>
    obtain ⟨g, rfl⟩ := State.takeSymbol_eq e
    exact .next (progressOk_of_decoding ⟨hp, .inl hd⟩ (State.decoding.output h hne c))

theorem execMatchSym_progressOk (m : Byte) : Ensures State.progressOk (execMatchSym m s) := by
  unfold execMatchSym
  split
  · exact ensures_fault _ _
  · next e =>
    obtain ⟨g, rfl⟩ := State.takeSymbol_eq e
    exact .next (progressOk_of_decoding ⟨hp, .inr (.inl rfl)⟩ h)

theorem symTurn_progressOk (hd : s.ctl.dstate = .sym) : Ensures State.progressOk (symTurn s) := by
  obtain ⟨hv, _, hb, hle, _⟩ := id h
  unfold symTurn
  split_ifs with _ hfin
  · exact .next (progressOk_of_decoding ⟨hp, .inl hd⟩ h)
  · exact .next ((progressOk_check_iff rfl).2 ⟨hv, hfin⟩)
  · exact .next (progressOk_of_complete ⟨hv, hfin⟩ rfl rfl rfl)
  · exact .next (progressOk_of_error rfl hle)
  · split
    · exact ensures_fault _ _
    · next hw =>
      obtain ⟨k, rfl⟩ := State.walk_truncated hw
      exact .next (progressOk_of_error rfl hle)
    · next c u hw =>
      obtain ⟨k, hk, rfl⟩ := State.walk_leaf_le hb hw
      split
      · rcases runWord_symbol_cases (BitVec.ofNat 9 c) (s.atBit k) with ⟨c, e⟩ | ⟨m, e⟩ | ⟨r, e⟩ <;> rw [e]
        · exact execLit_progressOk (s := s.atBit k) hp (h.atBit hk) c hd hfin
        · exact execMatchSym_progressOk (s := s.atBit k) hp (h.atBit hk) m
        · exact ensures_refused _ _
      · exact ensures_fault _ _

theorem State.position_progressOk (hi extra : Nat) (x : Byte) : (s.position hi extra x).progressOk := by
  obtain ⟨_, _, hb, hle, _⟩ := id h
  unfold State.position State.decodePosition
  cases e : State.getBits extra x.toNat s with
  | error u =>
    obtain ⟨k, rfl⟩ := State.getBits_error_atBit e
    exact progressOk_of_error rfl hle
  | ok r =>
    obtain ⟨v, u⟩ := r
    obtain ⟨rfl, hbits⟩ := State.getBits_ok e
    simp only
    split
    · exact progressOk_of_error rfl hle
    · exact progressOk_of_decoding ⟨hp, .inr (.inr rfl)⟩
        (h.atBit (k := s.dec.bitpos + extra) (by omega))

theorem posTurn_progressOk : Ensures State.progressOk (posTurn s) := by
  obtain ⟨_, _, hb, hle, _⟩ := id h
  unfold posTurn
  split
  · next u e =>
    obtain ⟨k, rfl⟩ := State.getBits_error_atBit e
    exact .next (progressOk_of_error rfl hle)
  · next x u e =>
    obtain ⟨rfl, hbits⟩ := State.getBits_ok e
    rw [runWord_of_decode rfl, exec_decodePos_eq]
    exact .next (State.position_progressOk (s := s.atBit (s.dec.bitpos + 8)) hp (h.atBit (by omega)) _ _ _)

theorem stepCopy_progressOk (hd : s.ctl.dstate = .copy) : (stepCopy s).progressOk := by
  simp only [stepCopy]
  split_ifs with _ hfin
  · exact progressOk_of_decoding ⟨hp, .inr (.inr hd)⟩ h
  · exact progressOk_of_decoding ⟨hp, .inl rfl⟩ h
  · exact progressOk_of_decoding ⟨hp, .inl rfl⟩ (h.output hfin _)
  · exact progressOk_of_decoding ⟨hp, .inr (.inr hd)⟩ (h.output hfin _)

end

theorem stepCheck_progressOk {s : State} (hp : s.ctl.phase = .check) (hs : s.progressOk) : (stepCheck s).progressOk := by
  have hall := (progressOk_check_iff hp).1 hs
  simp only [stepCheck]
  split_ifs
  · exact hs
  · exact progressOk_of_error rfl hs.outCount_le
  · exact progressOk_of_complete hall rfl rfl rfl

/-! ### The engine's turn and the step -/

theorem engineTurn_progressOk {s : State} (hs : s.progressOk) : Ensures State.progressOk (engineTurn s) := by
  cases hp : s.ctl.phase with
  | idle => rw [engineTurn_idle hp]; exact .next hs
  | done => rw [engineTurn_done hp]; exact .next hs
  | error => rw [engineTurn_error hp]; exact .next hs
  | frame => rw [engineTurn_frame hp]; exact fun t ht => (frameTurn_framesOn hp t ht).progressOk hp hs
  | check => rw [engineTurn_check hp]; exact .next (stepCheck_progressOk hp hs)
  | decode =>
    cases hd : s.ctl.dstate with
    | env => rw [engineTurn_env hp hd]; exact .next (stepEnv_progressOk hp hd hs)
    | init => rw [engineTurn_init hp hd]; exact .next (stepInit_progressOk hp hd hs)
    | sym =>
      rw [engineTurn_sym hp hd]
      exact symTurn_progressOk hp ((progressOk_decoding_iff ⟨hp, .inl hd⟩).1 hs) hd
    | pos =>
      rw [engineTurn_pos hp hd]
      exact posTurn_progressOk hp ((progressOk_decoding_iff ⟨hp, .inr (.inl hd)⟩).1 hs)
    | copy =>
      rw [engineTurn_copy hp hd]
      exact .next (stepCopy_progressOk hp ((progressOk_decoding_iff ⟨hp, .inr (.inr hd)⟩).1 hs) hd)

/-- Settles O56. -/
theorem stepKeepsProgress : Obligations.StepKeepsProgress := by
  intro s t hs
  have hs' (rest : List Move) : ({ s with agenda := rest } : State).progressOk := hs.congr rfl rfl rfl rfl rfl
  exact step_ensures (fun e he => engineTurn_progressOk (he.inherits hs'))
    (fun m rest _ hm => runMove_progressOk hm (hs' rest)) t

end Sys2Proof.Machine
end

section
/-!
What an update changes (42_lzhuf.md R188): the path from the leaf to the root, the places exchanged and the counts along it,
and nothing else. Settles O57.
-/

namespace Sys2Proof.Machine

open Sys2Proof.Config (Params)

/-! ### Entries of tables of one size -/

theorem getElem?_congr {l m : List Half} (hlen : l.length = m.length) {k : Nat} (e : entry l k = entry m k) :
    l[k]?.map BitVec.toNat = m[k]?.map BitVec.toNat := by
  by_cases hk : k < m.length
  · rw [getElem?_eq_entry hk, getElem?_eq_entry (by omega), e]
  · rw [List.getElem?_eq_none (Nat.not_lt.1 hk), List.getElem?_eq_none (by omega)]

theorem eq_of_entry_eq {l m : List Half} (hlen : l.length = m.length) (e : ∀ k, k < m.length → entry l k = entry m k) :
    l = m := by
  refine List.ext_getElem hlen fun k hl hm => BitVec.eq_of_toNat_eq ?_
  have h := e k hm
  simpa [entry, hl, hm] using h

section
variable {p : Params} {h h' : Huff} {short short' : Nat → Nat} (t : TreeUpTo p h short)
include t

/-- A symbol's prnt entry names its leaf. -/
theorem TreeUpTo.leaf_spec {x : Nat} (hT : p.T ≤ x) (hx : x < p.T + p.nChar) :
    entry h.prnt x < p.T ∧ entry h.son (entry h.prnt x) = x := by
  have ha := params_alphabet p
  obtain ⟨q, hq, hspan⟩ := t.child x hx (by omega)
  rw [t.parent_of_child q x hq hspan]
  refine ⟨hq, ?_⟩
  rcases hspan with e | ⟨hc, e⟩
  · exact e.symm
  · have := t.below q hq hc
    omega

/-- Two symbols have two leaves. -/
theorem TreeUpTo.leaf_inj {c d : Nat} (hd : d < p.nChar) (hc : c < p.nChar) :
    entry h.prnt (p.T + d) = entry h.prnt (p.T + c) ↔ d = c := by
  refine ⟨fun e => ?_, fun e => e ▸ rfl⟩
  obtain ⟨_, hsond⟩ := t.leaf_spec (x := p.T + d) (by omega) (by omega)
  obtain ⟨_, hsonc⟩ := t.leaf_spec (x := p.T + c) (by omega) (by omega)
  rw [e] at hsond
  omega

/-- The parent of a node is an internal node. -/
theorem TreeUpTo.son_parent_lt {k : Nat} (hk : k < p.root) : entry h.son (entry h.prnt k) < p.T := by
  have ha := params_alphabet p
  obtain ⟨_, _, e | ⟨hc, _⟩⟩ := t.parent_spec hk
  · omega
  · exact hc

/-- The son entries of a tree determine its prnt entries. -/
theorem TreeUpTo.prnt_eq (t' : TreeUpTo p h' short') (hson : h'.son = h.son) : h'.prnt = h.prnt := by
  obtain ⟨_, _, hpl⟩ := t.sized
  obtain ⟨_, _, hpl'⟩ := t'.sized
  refine eq_of_entry_eq (hpl'.trans hpl.symm) fun x hx => ?_
  by_cases hroot : x = p.root
  · rw [hroot, t'.root_parent, t.root_parent]
  · obtain ⟨q, hq, hspan⟩ := t.child x (by omega) hroot
    rw [t.parent_of_child q x hq hspan, t'.parent_of_child q x hq (by rw [hson]; exact hspan)]

end

/-! ### One turn of the loop -/

/-- From `h`, a tree short at `n`, the turn of the loop at `n` leads to `h'`: node `l`, the last one of the frequency of `n`,
has changed places with it and is counted. -/
structure TurnAt (p : Params) (h h' : Huff) (n l : Nat) : Prop where
  tree : TreeUpTo p h (shortAt n)
  node_le : n ≤ l
  lt : l < p.T
  same : entry h.freq l = entry h.freq n
  last : entry h.freq n < entry h.freq (l + 1)
  counted : CountedAt p h h' n l

section
variable {p : Params} {h h' : Huff} {n l : Nat} (turn : TurnAt p h h' n l)
include turn

theorem TurnAt.lastOfFrequency : LastOfFrequency p h n l := by
  obtain ⟨hfl, _⟩ := turn.tree.sized
  have hle := turn.node_le
  have hlt := turn.lt
  have hlast := turn.last
  refine ⟨hlt, ?_, fun m f g hlm hm ef eg => ?_⟩
  · rw [Huff.freqAt_eq (by omega), Huff.freqAt_eq (by omega), turn.same]
  · have := turn.tree.freq_mono (j := l + 1) hlm hm
    rw [← (entry_eq_of_getElem? ef).2, ← (entry_eq_of_getElem? eg).2]
    omega

/-- The exchange leaves the parents of the nodes from `l` on alone: their children stand below. -/
theorem TurnAt.prnt_above {k : Nat} (hlk : l ≤ k) (hk : k < p.T) : entry h'.prnt k = entry h.prnt k := by
  have ha := params_alphabet p
  have hle := turn.node_le
  by_cases hroot : k = p.root
  · rw [hroot]
    exact turn.counted.root_parent
  · obtain ⟨hup, hT, hspan⟩ := turn.tree.parent_spec (k := k) (by omega)
    rw [turn.counted.parent _ k hT hspan, Equiv.swap_apply_of_ne_of_ne (by omega) (by omega)]

/-- A symbol's frequency is counted where the turn is at its leaf. -/
theorem TurnAt.symbol_freq {x : Nat} (hT : p.T ≤ x) (hx : x < p.T + p.nChar) :
    entry h'.freq (entry h'.prnt x) = entry h.freq (entry h.prnt x) + if entry h.prnt x = n then 1 else 0 := by
  obtain ⟨hq, hson⟩ := turn.tree.leaf_spec hT hx
  rw [turn.counted.parent _ x hq (.inl hson.symm), turn.counted.freq]
  congr 1
  · rw [Equiv.swap_apply_def]
    split_ifs with hn hl
    · rw [hn, turn.same]
    · rw [hl, turn.same]
    · rfl
  · simp only [Equiv.swap_apply_eq_iff, Equiv.swap_apply_right]

end

/-! ### The path -/

/-- From node `m` on two tables have the same frequencies and parents. -/
def AgreeFrom (p : Params) (m : Nat) (h g : Huff) : Prop :=
  ∀ k, m ≤ k → k < p.T → g.freqAt k = h.freqAt k ∧ g.prntAt k = h.prntAt k

section
variable {p : Params} {m : Nat} {h g : Huff} (agree : AgreeFrom p m h g)
include agree

theorem LastOfFrequency.congr {a l : Nat} (hl : LastOfFrequency p h a l) (hma : m ≤ a) (hal : a ≤ l) :
    LastOfFrequency p g a l := by
  obtain ⟨hlt, hsame, hlast⟩ := hl
  obtain ⟨hfa, _⟩ := agree a hma (by omega)
  obtain ⟨hfl, _⟩ := agree l (by omega) hlt
  refine ⟨hlt, by rw [hfa, hfl, hsame], fun k f f' hlk hk ef ef' => ?_⟩
  obtain ⟨hfk, _⟩ := agree k (by omega) hk
  exact hlast k f f' hlk hk (hfa ▸ ef) (hfk ▸ ef')

/-- A path that stays where the tables agree is a path in both. -/
theorem UpdatePath.congr : ∀ {path : List (Nat × Nat)} {n : Nat}, UpdatePath p h n path →
    (∀ a l, (a, l) ∈ path → m ≤ a ∧ a ≤ l) → UpdatePath p g n path
  | [], _, hp, _ => hp
  | (a, l) :: rest, n, hp, habove => by
    obtain ⟨hma, hal⟩ := habove a l List.mem_cons_self
    obtain ⟨ha, hlast, hrest⟩ := hp
    obtain ⟨_, hprnt⟩ := agree l (by omega) hlast.1
    refine ⟨ha, hlast.congr agree hma hal, hrest.imp id ?_⟩
    rintro ⟨hne, q, hq, hpath⟩
    exact ⟨hne, q, hprnt.trans hq, hpath.congr fun a l hmem => habove a l (List.mem_cons_of_mem _ hmem)⟩

end

/-- The path ends with the root. -/
theorem UpdatePath.root_mem {p : Params} {h : Huff} : ∀ {path : List (Nat × Nat)} {n : Nat}, UpdatePath p h n path →
    ∃ a, (a, p.root) ∈ path
  | (a, l) :: rest, n, ⟨_, _, hend⟩ => by
    rcases hend with ⟨_, rfl⟩ | ⟨_, q, _, hpath⟩
    · exact ⟨a, List.mem_cons_self⟩
    · obtain ⟨a', hmem⟩ := hpath.root_mem
      exact ⟨a', List.mem_cons_of_mem _ hmem⟩

theorem UpdatePath.lt {p : Params} {h : Huff} : ∀ {path : List (Nat × Nat)} {n : Nat}, UpdatePath p h n path →
    ∀ a l, (a, l) ∈ path → l < p.T
  | (_, _) :: _, _, ⟨_, ⟨hlt, _⟩, _⟩, _, _, .head _ => hlt
  | (_, _) :: _, _, ⟨_, _, .inl ⟨hnil, _⟩⟩, _, _, .tail _ hmem => by
    rw [hnil] at hmem
    cases hmem
  | (_, _) :: _, _, ⟨_, _, .inr ⟨_, _, _, hpath⟩⟩, a, l, .tail _ hmem => hpath.lt a l hmem

/-! ### The loop -/

/-- From `h` to the tree `h'` the places on the path from `n` up are exchanged and counted, and nothing else is. -/
structure CountedAlong (p : Params) (h h' : Huff) (n : Nat) (path : List (Nat × Nat)) : Prop where
  tree : TreeSound p h'
  isPath : UpdatePath p h n path
  above : ∀ a l, (a, l) ∈ path → n ≤ a ∧ a ≤ l
  exchanged : ∀ a l, (a, l) ∈ path → entry h'.son a = entry h.son l ∧ entry h'.son l = entry h.son a
  counted : ∀ a l, (a, l) ∈ path → entry h'.freq l = entry h.freq l + 1
  son_other : ∀ k, (∀ a l, (a, l) ∈ path → k ≠ a ∧ k ≠ l) → entry h'.son k = entry h.son k
  freq_other : ∀ k, (∀ a l, (a, l) ∈ path → k ≠ l) → entry h'.freq k = entry h.freq k
  symbols : ∀ x, p.T ≤ x → x < p.T + p.nChar →
    entry h'.freq (entry h'.prnt x) = entry h.freq (entry h.prnt x) + if entry h.prnt x = n then 1 else 0

section
variable {p : Params} {h h1 h' : Huff} {n l : Nat}

/-- A turn that counts the root is the last one. -/
theorem TurnAt.countedAlong (turn : TurnAt p h h' n l) (hroot : l = p.root) (tree : TreeSound p h') :
    CountedAlong p h h' n [(n, l)] where
  tree := tree
  isPath := ⟨rfl, turn.lastOfFrequency, .inl ⟨rfl, hroot⟩⟩
  above a l' hmem := by
    cases List.mem_singleton.1 hmem
    exact ⟨le_refl n, turn.node_le⟩
  exchanged a l' hmem := by
    cases List.mem_singleton.1 hmem
    simp [turn.counted.son]
  counted a l' hmem := by
    cases List.mem_singleton.1 hmem
    simp [turn.counted.freq]
  son_other k hk := by
    obtain ⟨hn, hl⟩ := hk n l (List.mem_singleton.2 rfl)
    rw [turn.counted.son, Equiv.swap_apply_of_ne_of_ne hn hl]
  freq_other k hk := by
    rw [turn.counted.freq, if_neg (hk n l (List.mem_singleton.2 rfl)), Nat.add_zero]
  symbols _ hT hx := turn.symbol_freq hT hx

/-- A turn and the path from the parent of the place it counts. -/
theorem TurnAt.countedAlong_cons (turn : TurnAt p h h1 n l) (hroot : l ≠ p.root)
    (tree : TreeUpTo p h1 (shortAt (entry h1.prnt l))) {path : List (Nat × Nat)}
    (rest : CountedAlong p h1 h' (entry h1.prnt l) path) : CountedAlong p h h' n ((n, l) :: path) := by
  have ha := params_alphabet p
  have hle := turn.node_le
  have hlt := turn.lt
  obtain ⟨hup, _, _⟩ := tree.parent_spec (k := l) (by omega)
  obtain ⟨hfl, _, hpl⟩ := turn.tree.sized
  obtain ⟨hfl1, _, hpl1⟩ := turn.counted.sized
  have higher {a l' : Nat} (hmem : (a, l') ∈ path) : l < a ∧ a ≤ l' := by
    obtain ⟨h1, h2⟩ := rest.above a l' hmem
    omega
  have son_above {k : Nat} (hk : l < k) : entry h1.son k = entry h.son k := by
    rw [turn.counted.son, Equiv.swap_apply_of_ne_of_ne (by omega) (by omega)]
  have freq_ne {k : Nat} (hk : k ≠ l) : entry h1.freq k = entry h.freq k := by
    rw [turn.counted.freq, if_neg hk, Nat.add_zero]
  have son_low {k : Nat} (hk : k ≤ l) : entry h'.son k = entry h.son (Equiv.swap n l k) := by
    rw [← turn.counted.son]
    refine rest.son_other k fun a l' hmem => ?_
    have := higher hmem
    omega
  have agree : AgreeFrom p (l + 1) h1 h := fun k hlk hk =>
    ⟨getElem?_congr (hfl.trans hfl1.symm) (freq_ne (by omega)).symm,
      getElem?_congr (hpl.trans hpl1.symm) (turn.prnt_above (by omega) hk).symm⟩
  refine
    { tree := rest.tree, isPath := ⟨rfl, turn.lastOfFrequency, .inr ⟨hroot, entry h1.prnt l, ?parent, ?path⟩⟩
      above := ?above, exchanged := ?exchanged, counted := ?counted, son_other := ?son_other, freq_other := ?freq_other
      symbols := ?symbols }
  case parent => rw [Huff.prntAt_eq (by omega), turn.prnt_above (le_refl l) hlt]
  case path => exact rest.isPath.congr agree fun a l' hmem => ⟨(higher hmem).1, (higher hmem).2⟩
  case above =>
    rintro a l' (_ | ⟨_, hmem⟩)
    · exact ⟨le_refl n, hle⟩
    · have := higher hmem
      omega
  case exchanged =>
    rintro a l' (_ | ⟨_, hmem⟩)
    · rw [son_low hle, son_low (le_refl l), Equiv.swap_apply_left, Equiv.swap_apply_right]
      exact ⟨rfl, rfl⟩
    · obtain ⟨hla, hal⟩ := higher hmem
      rw [← son_above hla, ← son_above (by omega : l < l')]
      exact rest.exchanged a l' hmem
  case counted =>
    rintro a l' (_ | ⟨_, hmem⟩)
    · have hkeep := rest.freq_other l fun a l' hmem => by have := higher hmem; omega
      rw [hkeep, turn.counted.freq, if_pos rfl]
    · have := higher hmem
      rw [rest.counted a l' hmem, freq_ne (by omega)]
  case son_other =>
    intro k hk
    obtain ⟨hn, hl⟩ := hk n l List.mem_cons_self
    rw [rest.son_other k fun a l' hmem => hk a l' (List.mem_cons_of_mem _ hmem), turn.counted.son,
      Equiv.swap_apply_of_ne_of_ne hn hl]
  case freq_other =>
    intro k hk
    rw [rest.freq_other k fun a l' hmem => hk a l' (List.mem_cons_of_mem _ hmem), freq_ne (hk n l List.mem_cons_self)]
  case symbols =>
    intro x hT hx
    obtain ⟨_, hson⟩ := tree.leaf_spec hT hx
    have hne : entry h1.prnt x ≠ entry h1.prnt l := by
      intro e
      have := tree.son_parent_lt (k := l) (by omega)
      rw [← e, hson] at this
      omega
    rw [rest.symbols x hT hx, if_neg hne, Nat.add_zero, turn.symbol_freq hT hx]

end

theorem CountedAlong.on_path {p : Params} {h h' : Huff} {n a l : Nat} {path : List (Nat × Nat)}
    (counts : CountedAlong p h h' n path) (hmem : (a, l) ∈ path) : a ≤ l ∧ l < p.T :=
  ⟨(counts.above a l hmem).2, counts.isPath.lt a l hmem⟩

/-- Where every place is exchanged with itself no son entry changes. -/
theorem CountedAlong.son_eq {p : Params} {h h' : Huff} {n : Nat} {path : List (Nat × Nat)}
    (counts : CountedAlong p h h' n path) (hlen : h.son.length = p.T) (still : ∀ a l, (a, l) ∈ path → a = l) :
    h'.son = h.son := by
  refine eq_of_entry_eq (counts.tree.son_length.trans hlen.symm) fun k _ => ?_
  by_cases hk : ∃ a l, (a, l) ∈ path ∧ (k = a ∨ k = l)
  · obtain ⟨a, l, hmem, hk⟩ := hk
    obtain ⟨hson, _⟩ := counts.exchanged a l hmem
    obtain rfl := still a l hmem
    rwa [or_self_iff.1 hk]
  · push Not at hk
    exact counts.son_other k hk

/-- From a tree short at `n` alone, and whose root is below MAX_FREQ, the loop counts a path from `n` to the root. -/
theorem TreeUpTo.climb_counts {p : Params} : ∀ {fuel n : Nat} {h : Huff}, TreeUpTo p h (shortAt n) → n < p.T →
    p.T ≤ n + fuel → entry h.freq p.root < Config.MAX_FREQ →
      ∃ h' path, Huff.climb p.T fuel h n = some h' ∧ CountedAlong p h h' n path
  | 0, n, h, _, hn, hfuel, _ => by omega
  | fuel + 1, n, h, t, hn, hfuel, hroot => by
    have ha := params_alphabet p
    have hmax : Config.MAX_FREQ = 0x8000 := rfl
    have hle : entry h.freq n ≤ entry h.freq p.root := t.freq_mono (by omega) (by omega)
    obtain ⟨h1, l, e, hnl, hl, heq, hlast, c⟩ := t.bump_spec hn (by omega)
    have turn : TurnAt p h h1 n l := ⟨t, hnl, hl, heq, hlast, c⟩
    have t1 := t.after_count hn hl hnl heq hlast c
    have hup : h1.prntAt l = some (entry h1.prnt l) := Huff.prntAt_eq (by rw [c.sized.2.2]; omega)
    by_cases hlr : l = p.root
    · rw [if_pos hlr] at t1
      have h0 : entry h1.prnt l = 0 := hlr ▸ t1.root_parent
      have hroot1 : entry h1.freq p.root ≤ Config.MAX_FREQ := by
        rw [c.freq]
        split_ifs <;> omega
      exact ⟨h1, _, by simp only [Huff.climb, e, hup, h0], turn.countedAlong hlr (t1.treeSound hroot1)⟩
    · rw [if_neg hlr] at t1
      obtain ⟨hlt, hT, _⟩ := t1.parent_spec (k := l) (by omega)
      have hroot1 : entry h1.freq p.root < Config.MAX_FREQ := by
        rw [c.freq, if_neg (Ne.symm hlr)]
        exact hroot
      obtain ⟨h', path, e', rest⟩ := TreeUpTo.climb_counts (fuel := fuel) t1 hT (by omega) hroot1
      obtain ⟨q, hq⟩ : ∃ q, entry h1.prnt l = q + 1 := ⟨_, (Nat.succ_pred (by omega)).symm⟩
      refine ⟨h', _, ?_, turn.countedAlong_cons hlr t1 rest⟩
      rw [← e', hq]
      simp only [Huff.climb, e, hup, hq]

/-! ### The update -/

theorem Huff.halvedIfFull_eq {p : Params} {h : Huff} {f : Nat} (hf : h.freqAt p.root = some f) :
    h.halvedIfFull p = if f = Config.MAX_FREQ then reconst p h else some h := by
  unfold Huff.halvedIfFull
  rw [hf]

theorem Huff.update_eq {p : Params} {h u : Huff} {c n : Nat} (hu : h.halvedIfFull p = some u)
    (hn : u.prntAt (p.T + c) = some n) : h.update p c = Huff.climb p.T p.T u n := by
  unfold Huff.update
  rw [hu, Nat.add_comm c]
  dsimp only
  rw [hn]

theorem TreeSound.freqAt_root {p : Params} {h : Huff} (ts : TreeSound p h) :
    h.freqAt p.root = some (entry h.freq p.root) := by
  have ha := params_alphabet p
  exact Huff.freqAt_eq (by rw [ts.freq_length]; omega)

theorem TreeSound.prntAt_symbol {p : Params} {h : Huff} (ts : TreeSound p h) {c : Nat} (hc : c < p.nChar) :
    h.prntAt (p.T + c) = some (entry h.prnt (p.T + c)) :=
  Huff.prntAt_eq (by rw [ts.prnt_length]; omega)

/-- Below MAX_FREQ the update starts from the tables as they are. -/
theorem TreeSound.update_eq_climb {p : Params} {h : Huff} (ts : TreeSound p h) {c : Nat} (hc : c < p.nChar)
    (hlt : entry h.freq p.root < Config.MAX_FREQ) :
    h.update p c = Huff.climb p.T p.T h (entry h.prnt (p.T + c)) :=
  Huff.update_eq (by rw [Huff.halvedIfFull_eq ts.freqAt_root, if_neg hlt.ne]) (ts.prntAt_symbol hc)

/-- With the root at MAX_FREQ the update is the halved tables' (R187, R188). -/
theorem TreeSound.update_halved {p : Params} {h : Huff} (ts : TreeSound p h) {c : Nat} (hc : c < p.nChar)
    (hroot : h.freqAt p.root = some Config.MAX_FREQ) :
    ∃ u, reconst p h = some u ∧ h.update p c = u.update p c := by
  obtain ⟨u, eu, tu, hlt⟩ := ts.reconst_spec
  have hfull : h.halvedIfFull p = some u := by rw [Huff.halvedIfFull_eq hroot, if_pos rfl, eu]
  exact ⟨u, eu, (Huff.update_eq hfull (tu.prntAt_symbol hc)).trans (tu.update_eq_climb hc hlt).symm⟩

/-- Below MAX_FREQ the update counts the path from the symbol's leaf (R188). -/
theorem TreeSound.update_counts {p : Params} {h : Huff} (ts : TreeSound p h) {c : Nat} (hc : c < p.nChar)
    (hlt : entry h.freq p.root < Config.MAX_FREQ) :
    ∃ h' path, h.update p c = some h' ∧ CountedAlong p h h' (entry h.prnt (p.T + c)) path := by
  have t := ts.treeUpTo
  obtain ⟨hn, hson⟩ := t.leaf_spec (x := p.T + c) (by omega) (by omega)
  rw [ts.update_eq_climb hc hlt]
  exact (t.short_leaf (by omega)).climb_counts hn (Nat.le_add_left p.T _) hlt

/-- Settles O57: the loop's path, counted turn by turn. -/
theorem updateKeepsTreeSound : Obligations.UpdateKeepsTreeSound := by
  intro p h c f ts hc hf
  have ha := params_alphabet p
  have t := ts.treeUpTo
  have value {k v : Nat} {l : List Half} (e : l[k]?.map BitVec.toNat = some v) : entry l k = v :=
    (entry_eq_of_getElem? e).2
  obtain ⟨_, rfl⟩ := entry_eq_of_getElem? hf
  refine ⟨fun hmax => ts.update_halved hc (hmax ▸ hf), fun hne => ?_⟩
  obtain ⟨h', path, eu, counts⟩ := ts.update_counts hc (Nat.lt_of_le_of_ne ts.root_le hne)
  have t' := counts.tree.treeUpTo
  have hflen : h'.freq.length = h.freq.length := counts.tree.freq_length.trans ts.freq_length.symm
  have hslen : h'.son.length = h.son.length := counts.tree.son_length.trans ts.son_length.symm
  refine ⟨h', _, path, eu, counts.tree, ?root, ?leaves, ts.prntAt_symbol hc, counts.isPath, ?pairs,
    fun k hk => getElem?_congr hslen (counts.son_other k hk), fun k hk => getElem?_congr hflen (counts.freq_other k hk),
    ?still⟩
  case root =>
    obtain ⟨a, hmem⟩ := counts.isPath.root_mem
    rw [counts.tree.freqAt_root, counts.counted a _ hmem]
  case leaves =>
    intro d k k' g hd hk hg hk'
    obtain ⟨hlt, _⟩ := t'.leaf_spec (x := p.T + d) (by omega) (by omega)
    have hcount := counts.symbols (p.T + d) (by omega) (by omega)
    simp only [t.leaf_inj hd hc] at hcount
    rw [Huff.freqAt_eq (by rw [counts.tree.freq_length, ← value hk']; omega), ← value hk', hcount, value hk, value hg]
    split_ifs <;> rfl
  case pairs =>
    intro a l hmem
    obtain ⟨hal, hl⟩ := counts.on_path hmem
    obtain ⟨hsona, hsonl⟩ := counts.exchanged a l hmem
    refine ⟨?_, ?_, fun g hg => ?_⟩
    · rw [Huff.sonAt_eq (by rw [counts.tree.son_length]; omega), Huff.sonAt_eq (by rw [ts.son_length]; omega), hsona]
    · rw [Huff.sonAt_eq (by rw [counts.tree.son_length]; omega), Huff.sonAt_eq (by rw [ts.son_length]; omega), hsonl]
    · rw [Huff.freqAt_eq (by rw [counts.tree.freq_length]; omega), counts.counted a l hmem, value hg]
  case still =>
    intro heq
    have hson := counts.son_eq ts.son_length heq
    exact ⟨hson, t.prnt_eq t' hson⟩

end Sys2Proof.Machine
end

section
/-!
The order in which halving builds the nodes (42_lzhuf.md R187): the leaves in their old order, each before the internal nodes
of its frequency, and the internal nodes in the order of their children. Settles O58.
-/

namespace Sys2Proof.Machine

open Sys2Proof.Config (Params)

/-! ### The nodes that reconst puts into the tables -/

theorem Huff.setPrnt_keeps {h h' : Huff} {k v : Nat} (e : h.setPrnt k v = some h') :
    h'.freq = h.freq ∧ h'.son = h.son := by
  unfold Huff.setPrnt at e
  split at e
  · cases e
    exact ⟨rfl, rfl⟩
  · cases e

theorem Huff.setParent_keeps {t : Nat} {h h' : Huff} {c v : Nat} (e : h.setParent t c v = some h') :
    h'.freq = h.freq ∧ h'.son = h.son := by
  unfold Huff.setParent at e
  cases e1 : h.setPrnt c v with
  | none => simp [e1] at e
  | some h1 =>
    obtain ⟨hf, hs⟩ := Huff.setPrnt_keeps e1
    simp only [e1] at e
    split_ifs at e
    · obtain ⟨hf', hs'⟩ := Huff.setPrnt_keeps e
      exact ⟨hf'.trans hf, hs'.trans hs⟩
    · cases e
      exact ⟨hf, hs⟩

/-- Step 3 writes parents alone. -/
theorem reparentFrom_keeps {t : Nat} : ∀ {i : Nat} {S : List Half} {h h' : Huff}, reparentFrom t i S h = some h' →
    h'.freq = h.freq ∧ h'.son = h.son
  | _, [], h, h', e => by
    cases e
    exact ⟨rfl, rfl⟩
  | i, c :: S, h, h', e => by
    unfold reparentFrom at e
    cases e1 : h.setParent t c.toNat i with
    | none => simp [e1] at e
    | some h1 =>
      obtain ⟨hf, hs⟩ := Huff.setParent_keeps e1
      simp only [e1] at e
      obtain ⟨hf', hs'⟩ := reparentFrom_keeps e
      exact ⟨hf'.trans hf, hs'.trans hs⟩

/-- Halving a tree puts into the tables the nodes that step 2 builds over its halved leaves. -/
theorem TreeUpTo.reconst_nodes {p : Params} {h h' : Huff} (t : TreeUpTo p h noShortage) (e : reconst p h = some h') :
    ∃ nodes, rebuildFrom (p.T - p.nChar) 0 ((leafNodes p h).map (halvedLeaf h)) = some nodes ∧
      h'.freq = freqs nodes ++ h.freq.drop p.T ∧ h'.son = sons nodes := by
  simp only [reconst, halvedLeaves_eq t.sized, List.length_map, leafNodes_length t, if_true] at e
  split at e
  · cases e
  · next nodes e1 => exact ⟨nodes, e1, reparentFrom_keeps e⟩

/-! ### One node more -/

/-- The internal node built next carries the sum of the two lowest nodes without a parent. -/
theorem Rebuilt.succ_insert {p : Params} {sum m : Nat} {nodes : List HuffNode} (r : Rebuilt p sum m nodes)
    (hm : m + 1 < p.nChar) (hsum : sum < 2 ^ 16) : ∃ nodes' k,
      (∀ n, rebuildFrom (n + 1) (2 * m) nodes = rebuildFrom n (2 * (m + 1)) nodes') ∧ Rebuilt p sum (m + 1) nodes' ∧
      Inserted nodes nodes' k (entry (freqs nodes) (2 * m) + entry (freqs nodes) (2 * m + 1)) (2 * m) := by
  have ha := params_alphabet p
  obtain ⟨a, b, ea, eb, hfa, hfb, htot⟩ := r.pair hm
  have hadd : (a.1 + b.1).toNat = entry (freqs nodes) (2 * m) + entry (freqs nodes) (2 * m + 1) := by
    rw [BitVec.toNat_add, ← hfa, ← hfb]
    exact Nat.mod_eq_of_lt (by omega)
  have hrun (n : Nat) : rebuildFrom (n + 1) (2 * m) nodes =
      rebuildFrom n (2 * (m + 1)) (insertNode nodes (a.1 + b.1) (2 * m)) := by
    simp only [rebuildFrom, ea, eb]
    rfl
  obtain ⟨nodes', e, r'⟩ := r.succ hm hsum 0
  cases (hrun 0).symm.trans e
  exact ⟨_, _, hrun, r', hadd ▸ insertNode_spec (a.1 + b.1) (by omega) r.sorted⟩

/-- A node of the list after an insertion is the new one or one of the old ones. -/
theorem Inserted.cases {nodes nodes' : List HuffNode} {k f c : Nat} (ins : Inserted nodes nodes' k f c) {j : Nat}
    (hj : j < nodes'.length) :
    (j = k ∧ entry (freqs nodes') j = f ∧ entry (sons nodes') j = c) ∨
      ∃ i, i < nodes.length ∧ (i < k ∧ j = i ∨ k ≤ i ∧ j = i + 1) ∧
        entry (freqs nodes') j = entry (freqs nodes) i ∧ entry (sons nodes') j = entry (sons nodes) i := by
  have hlen := ins.length
  have hk := ins.index_le
  rcases Nat.lt_trichotomy j k with hjk | rfl | hjk
  · exact .inr ⟨j, by omega, .inl ⟨hjk, rfl⟩, ins.freq_low j hjk, ins.son_low j hjk⟩
  · exact .inl ⟨rfl, ins.freq_new, ins.son_new⟩
  · exact .inr ⟨j - 1, by omega, .inr ⟨by omega, by omega⟩, ins.freq_high j hjk, ins.son_high j hjk⟩

/-! ### The order of the nodes -/

/-- The nodes stand in the order of R187 over the halved leaves of the tree `h`. -/
structure InOrder (p : Params) (h : Huff) (nodes : List HuffNode) : Prop where
  /-- A leaf has half its old frequency, rounded up. -/
  leaf_freq : ∀ k, k < nodes.length → p.T ≤ entry (sons nodes) k →
    entry (freqs nodes) k = (entry h.freq (entry h.prnt (entry (sons nodes) k)) + 1) / 2
  /-- The leaves keep the order that they had as nodes of `h`. -/
  leaves_rise : ∀ i j, i < j → j < nodes.length → p.T ≤ entry (sons nodes) i → p.T ≤ entry (sons nodes) j →
    entry h.prnt (entry (sons nodes) i) < entry h.prnt (entry (sons nodes) j)
  /-- A leaf stands before an internal node of its frequency. -/
  leaf_first : ∀ i j, i < nodes.length → j < nodes.length → p.T ≤ entry (sons nodes) i → entry (sons nodes) j < p.T →
    entry (freqs nodes) i = entry (freqs nodes) j → i < j
  /-- The internal nodes stand in the order of their children. -/
  inner_rise : ∀ i j, i < j → j < nodes.length → entry (sons nodes) i < p.T → entry (sons nodes) j < p.T →
    entry (sons nodes) i < entry (sons nodes) j

/-- The halved leaves, in node order. -/
theorem inOrder_leaves {p : Params} {h : Huff} (t : TreeUpTo p h noShortage) :
    InOrder p h ((leafNodes p h).map (halvedLeaf h)) := by
  have son_at {k : Nat} (hk : k < (leafNodes p h).length) :
      entry (sons ((leafNodes p h).map (halvedLeaf h))) k = entry h.son (leafNodes p h)[k] := by
    simp [entry, sons, hk, halvedLeaf]
  have freq_at {k : Nat} (hk : k < (leafNodes p h).length) :
      entry (freqs ((leafNodes p h).map (halvedLeaf h))) k = (entry h.freq (leafNodes p h)[k] + 1) / 2 := by
    rw [← halvedLeaf_freq]
    simp [entry, freqs, hk]
  have leaf {k : Nat} (hk : k < (leafNodes p h).length) :
      (leafNodes p h)[k] < p.T ∧ p.T ≤ entry h.son (leafNodes p h)[k] := mem_leafNodes.1 (List.getElem_mem hk)
  have prnt_at {k : Nat} (hk : k < (leafNodes p h).length) :
      entry h.prnt (entry h.son (leafNodes p h)[k]) = (leafNodes p h)[k] := t.parent_of_child _ _ (leaf hk).1 (.inl rfl)
  have rising : (leafNodes p h).Pairwise (· < ·) := List.pairwise_lt_range.filter _
  constructor
  case leaf_freq =>
    intro k hk _
    rw [List.length_map] at hk
    rw [freq_at hk, son_at hk, prnt_at hk]
  case leaves_rise =>
    intro i j hij hj _ _
    rw [List.length_map] at hj
    rw [son_at (by omega), son_at hj, prnt_at (by omega), prnt_at hj]
    exact List.pairwise_iff_getElem.1 rising i j (by omega) hj hij
  case leaf_first =>
    intro i j _ hj _ hc
    rw [List.length_map] at hj
    rw [son_at hj] at hc
    exact absurd (leaf hj).2 (Nat.not_le.2 hc)
  case inner_rise =>
    intro i j _ hj _ hc
    rw [List.length_map] at hj
    rw [son_at hj] at hc
    exact absurd (leaf hj).2 (Nat.not_le.2 hc)

/-- The next internal node comes in above the internal nodes built before it, whose children are no heavier, and above the
leaves of its frequency. -/
theorem InOrder.insert {p : Params} {h : Huff} {sum m k : Nat} {nodes nodes' : List HuffNode} (o : InOrder p h nodes)
    (r : Rebuilt p sum m nodes) (hm : m + 1 < p.nChar)
    (ins : Inserted nodes nodes' k (entry (freqs nodes) (2 * m) + entry (freqs nodes) (2 * m + 1)) (2 * m)) :
    InOrder p h nodes' := by
  have ha := params_alphabet p
  have hlen := r.length
  have hlen' := ins.length
  have inner_below {j : Nat} (hj : j < nodes.length) (hc : entry (sons nodes) j < p.T) :
      entry (sons nodes) j < 2 * m ∧ j < k := by
    obtain ⟨_, hadd⟩ := r.inner j hj hc
    rcases r.son_cases hj with ⟨hT, _⟩ | ⟨i, hi, e⟩
    · omega
    · rw [e] at hadd ⊢
      have h1 := r.sorted (2 * i) (2 * m) (by omega) (by omega)
      have h2 := r.sorted (2 * i + 1) (2 * m + 1) (by omega) (by omega)
      refine ⟨by omega, ?_⟩
      by_contra hk
      have := ins.higher j (by omega) hj
      omega
  constructor
  case leaf_freq =>
    intro j hj hT
    rcases ins.cases hj with ⟨_, _, hs⟩ | ⟨i, hi, _, hf, hs⟩
    · omega
    · rw [hs] at hT ⊢
      rw [hf]
      exact o.leaf_freq i hi hT
  case leaves_rise =>
    intro i j hij hj hTi hTj
    rcases ins.cases hj with ⟨_, _, hs⟩ | ⟨j', hj', hpos, _, hs⟩
    · omega
    · rcases ins.cases (show i < nodes'.length by omega) with ⟨_, _, hs'⟩ | ⟨i', hi', hpos', _, hs'⟩
      · omega
      · rw [hs] at hTj ⊢
        rw [hs'] at hTi ⊢
        exact o.leaves_rise i' j' (by omega) hj' hTi hTj
  case leaf_first =>
    intro i j hi hj hT hc hfreq
    rcases ins.cases hi with ⟨_, _, hs⟩ | ⟨i', hi', hpos, hf, hs⟩
    · omega
    · rw [hs] at hT
      rw [hf] at hfreq
      rcases ins.cases hj with ⟨rfl, hf', _⟩ | ⟨j', hj', hpos', hf', hs'⟩
      · rw [hf'] at hfreq
        by_contra hlt
        have := ins.higher i' (by omega) hi'
        omega
      · rw [hs'] at hc
        rw [hf'] at hfreq
        have := o.leaf_first i' j' hi' hj' hT hc hfreq
        omega
  case inner_rise =>
    intro i j hij hj hci hcj
    rcases ins.cases hj with ⟨rfl, _, hs⟩ | ⟨j', hj', hpos, _, hs⟩ <;>
      rcases ins.cases (show i < nodes'.length by omega) with ⟨_, _, hs'⟩ | ⟨i', hi', hpos', _, hs'⟩ <;>
      rw [hs] at hcj ⊢ <;> rw [hs'] at hci ⊢
    · omega
    · exact (inner_below hi' hci).1
    · have := inner_below hj' hcj
      omega
    · exact o.inner_rise i' j' (by omega) hj' hci hcj

/-- The nodes built on to the root stand in order. -/
theorem InOrder.complete {p : Params} {h : Huff} {sum : Nat} (hsum : sum < 2 ^ 16) : ∀ {n m : Nat}
    {nodes nodes' : List HuffNode}, InOrder p h nodes → Rebuilt p sum m nodes → m + n + 1 = p.nChar →
      rebuildFrom n (2 * m) nodes = some nodes' → InOrder p h nodes' ∧ Rebuilt p sum (p.nChar - 1) nodes'
  | 0, m, nodes, nodes', o, r, hn, e => by
    cases e
    exact ⟨o, by rwa [show p.nChar - 1 = m by omega]⟩
  | n + 1, m, nodes, nodes', o, r, hn, e => by
    obtain ⟨nodes1, k, hrun, r1, ins⟩ := r.succ_insert (by omega) hsum
    exact (o.insert r (by omega) ins).complete hsum r1 (by omega) ((hrun n).symm.trans e)

/-! ### The halved tables -/

/-- The tables of a halved tree hold nodes in the order of R187. -/
theorem TreeUpTo.reconst_inOrder {p : Params} {h h' : Huff} (t : TreeUpTo p h noShortage)
    (hroot : entry h.freq p.root ≤ Config.MAX_FREQ) (e : reconst p h = some h') :
    ∃ nodes, InOrder p h nodes ∧ nodes.length = p.T ∧ h'.son = sons nodes ∧
      ∀ k, k < p.T → entry h'.freq k = entry (freqs nodes) k := by
  have ha := params_alphabet p
  have hmax : Config.MAX_FREQ = 0x8000 := rfl
  have hsum := halved_total_lt t hroot
  obtain ⟨nodes, e1, hfreq, hson⟩ := t.reconst_nodes e
  obtain ⟨o, r⟩ := (inOrder_leaves t).complete (n := p.T - p.nChar) (by omega) (rebuilt_leaves t) (by omega) e1
  refine ⟨nodes, o, r.length_eq, hson, fun k hk => ?_⟩
  rw [hfreq]
  exact entry_append_left (by simpa [freqs, r.length_eq] using hk)

/-- Settles O58. -/
theorem halvingKeepsTreeSound : Obligations.HalvingKeepsTreeSound := by
  intro p h ts
  have ha := params_alphabet p
  obtain ⟨h', e, ts', hlt⟩ := ts.reconst_spec
  have t' := ts'.treeUpTo
  obtain ⟨nodes, o, hlen, hson, hfreq⟩ := ts.treeUpTo.reconst_inOrder ts.root_le e
  rw [← hlen] at hfreq
  have value {k v : Nat} {l : List Half} (e : l[k]?.map BitVec.toNat = some v) : entry l k = v :=
    (entry_eq_of_getElem? e).2
  have leaf {d k' : Nat} (hd : d < p.nChar) (hk' : h'.prntAt (p.T + d) = some k') :
      k' < nodes.length ∧ entry (sons nodes) k' = p.T + d := by
    rw [← value hk', ← hson, hlen]
    exact t'.leaf_spec (by omega) (by omega)
  have node {k x : Nat} (hk : h'.sonAt k = some x) : k < nodes.length ∧ entry (sons nodes) k = x := by
    obtain ⟨h1, h2⟩ := entry_eq_of_getElem? hk
    rw [ts'.son_length, ← hlen] at h1
    exact ⟨h1, hson ▸ h2⟩
  refine ⟨h', e, ts', fun f hf => value hf ▸ hlt, ?freq, ?leaves, ?first, ?inner⟩
  case freq =>
    intro d k k' g hd hk hg hk'
    obtain ⟨hlt', hs⟩ := leaf hd hk'
    have := o.leaf_freq k' hlt' (by omega)
    rw [hs, value hk, value hg, ← hfreq k' hlt'] at this
    rw [Huff.freqAt_eq (by rw [ts'.freq_length]; omega), this]
  case leaves =>
    intro c d k m k' m' hc hd hk hm hk' hm' hkm
    obtain ⟨hltk, hsk⟩ := leaf hc hk'
    obtain ⟨hltm, hsm⟩ := leaf hd hm'
    rcases Nat.lt_trichotomy k' m' with hlt' | rfl | hgt
    · exact hlt'
    · obtain rfl : c = d := by omega
      rw [hk, Option.some.injEq] at hm
      omega
    · have := o.leaves_rise m' k' hgt hltk (by omega) (by omega)
      rw [hsm, hsk, value hk, value hm] at this
      omega
  case first =>
    intro k m x y hk hx hm hy hf
    obtain ⟨hltk, rfl⟩ := node hk
    obtain ⟨hltm, rfl⟩ := node hm
    rw [Huff.freqAt_eq (by rw [ts'.freq_length]; omega), Huff.freqAt_eq (by rw [ts'.freq_length]; omega),
      Option.some.injEq, hfreq k hltk, hfreq m hltm] at hf
    exact o.leaf_first k m hltk hltm hx hy hf
  case inner =>
    intro k m x y hkm hk hx hm hy
    obtain ⟨_, rfl⟩ := node hk
    obtain ⟨hltm, rfl⟩ := node hm
    exact o.inner_rise k m hkm hltm hx hy

end Sys2Proof.Machine
end

section
/-!
The decoder's turns one by one (42_lzhuf.md R180 to R196): the envelope, INIT, the symbol boundary, the symbols and the copy.
Settles O36, O37, O39, O40, O41 and O44.
-/

namespace Sys2Proof.Machine

open Sys2Proof.Config (Params)

/-! ### ENV and INIT (42_lzhuf.md R180, R185, R186) -/

/-- Settles O36. -/
theorem envelopeStep : Obligations.EnvelopeStep := by
  intro s e he hp hd
  rw [step_eq_engineTurn he, engineTurn_env hp hd]
  refine ⟨fun h => ?_, fun h => ?_⟩
  · rw [stepEnv, if_pos h]
    rfl
  · rw [stepEnv, if_neg (Nat.not_lt.2 h)]
    rfl

/-- An emptied window holds the fill byte everywhere. -/
theorem stepInit_readHist (s : State) (i : HistIndex) : (stepInit s).readHist i = s.params.val.histFill := rfl

/-- wpos starts at N − F, which is inside the window. -/
theorem histIndex_start (p : Params) : histIndex p (p.N - p.F) = BitVec.ofNat 12 (p.N - p.F) := by
  have hb := params_bounds p
  rw [histIndex, Nat.mod_eq_of_lt (by omega)]

/-- Settles O37: the entries of the initial tables. -/
theorem initStepFillsWindowAndTree : Obligations.InitStepFillsWindowAndTree := by
  intro s e he hp hd
  have ha := params_alphabet e.params
  rw [step_eq_engineTurn he, engineTurn_init hp hd]
  refine ⟨stepInit e, rfl, ?frame, fun i _ => stepInit_readHist e i, fun c hc => ⟨?freq, ?son, ?prnt⟩, fun m hm => ?inner,
    startHuff_freqAt_T _, startHuff_prntAt_root _⟩
  case frame =>
    rw [← histIndex_start]
    rfl
  case freq =>
    rw [← startFreq_leaf e.params hc]
    exact startHuff_freqAt e.params (by omega)
  case son => exact (startHuff_sonAt e.params c).trans (if_pos hc)
  case prnt =>
    rw [Nat.add_comm]
    exact startHuff_prntAt_leaf e.params hc
  case inner =>
    have hson : (startHuff e.params).sonAt (e.params.nChar + m) = some (2 * m) := by
      rw [startHuff_sonAt, if_neg (by omega), if_pos (by omega), Nat.add_sub_cancel_left]
    have hsum : (startHuff e.params).freqAt (e.params.nChar + m) =
        some (startFreq e.params (2 * m) + startFreq e.params (2 * m + 1)) := by
      rw [startHuff_freqAt e.params (by omega), startFreq_internal e.params (by omega)]
    obtain ⟨_, hleft, hright, _⟩ := (startHuff_treeSound e.params).internal _ _ hson (by omega)
    exact ⟨_, _, startHuff_freqAt e.params (by omega), startHuff_freqAt e.params (by omega), hsum, hson, hleft, hright⟩

/-! ### The symbol boundary (42_lzhuf.md R191) -/

/-- A walk that runs out has read the body to its end (R183). -/
theorem State.walk_truncated_eq {s u : State} (hb : s.dec.bitpos ≤ s.bodyBits) (h : s.walk = .truncated u) :
    u = s.atBit s.bodyBits := by
  unfold State.walk at h
  cases hroot : s.huff.sonAt s.params.root with
  | none => simp [hroot] at h
  | some n =>
    simp only [hroot] at h
    rw [walkFrom_truncated h, Nat.add_sub_cancel' hb]

section
variable {s : State} (ho : s.out.valid = false)
include ho

theorem symTurn_finish (hfin : s.dec.outCount = s.env.declaredLen) :
    symTurn s = if s.host.cfgCrcEn then .next { s with ctl := { s.ctl with phase := .check } } else .next s.complete := by
  rw [symTurn, ho, if_neg Bool.false_ne_true, if_pos hfin]

theorem symTurn_lengthMismatch (hne : s.dec.outCount ≠ s.env.declaredLen) (hb : s.dec.bitpos = s.bodyBits) :
    symTurn s = .next (s.raise .lengthMismatch s.fr.imageLen s.env.declaredLen s.dec.outCount) := by
  rw [symTurn, ho, if_neg Bool.false_ne_true, if_neg hne, if_pos hb]

theorem symTurn_truncated {u : State} (hne : s.dec.outCount ≠ s.env.declaredLen) (hb : s.dec.bitpos < s.bodyBits)
    (hw : s.walk = .truncated u) : symTurn s = .next s.outOfBits := by
  rw [symTurn, ho, if_neg Bool.false_ne_true, if_neg hne, if_neg hb.ne, hw, State.walk_truncated_eq hb.le hw]
  rfl

end

/-- Settles O39. -/
theorem symbolBoundaryTests : Obligations.SymbolBoundaryTests := by
  intro s e he hp hd ho
  rw [step_eq_engineTurn he, engineTurn_sym hp hd]
  refine ⟨fun hfin hcrc => ?check, fun hfin hcrc => ?done, symTurn_lengthMismatch ho,
    fun u hne hb hw => symTurn_truncated ho hne hb hw⟩
  case check => rw [symTurn_finish ho hfin, if_pos hcrc]
  case done =>
    rw [symTurn_finish ho hfin, if_neg (by simp [hcrc])]
    rfl

/-! ### An output byte in the window (42_lzhuf.md R192, R195) -/

theorem State.readHist_output_self (s : State) (b : Byte) : (s.output b).readHist s.dec.wpos = b :=
  s.readHist_writeHist_self s.dec.wpos b

theorem State.readHist_output_ne (s : State) {i : HistIndex} (h : i ≠ s.dec.wpos) (b : Byte) :
    (s.output b).readHist i = s.readHist i := s.readHist_writeHist_ne h b

/-! ### The symbols (42_lzhuf.md R189 to R192) -/

theorem State.takeSymbol_of_update {s : State} {c : Nat} {h : Huff} (e : s.huff.update s.params c = some h) :
    s.takeSymbol c = some { s with huff := h, dec := { s.dec with sym := BitVec.ofNat 16 c } } := by
  rw [State.takeSymbol, e]

theorem execLit_of_take {s t : State} {c : Byte} (e : s.takeSymbol c.toNat = some t) :
    exec (.lit c) s = .next (t.output c) := by
  show execLit c s = _
  rw [execLit, e]

theorem execMatchSym_of_take {s t : State} {m : Byte} (e : s.takeSymbol (256 + m.toNat) = some t) :
    exec (.matchSym m) s = .next (t.gotoD .pos) := by
  show execMatchSym m s = _
  rw [execMatchSym, e]

/-- Settles O40. -/
theorem symbolSteps : Obligations.SymbolSteps := by
  refine ⟨fun s m h e => execMatchSym_of_take (State.takeSymbol_of_update e), fun s c h e => ?_⟩
  have htake := State.takeSymbol_of_update e
  rw [BitVec.ofNat_toNat] at htake
  exact ⟨_, execLit_of_take htake, rfl, State.readHist_output_self _ c, fun i hi => State.readHist_output_ne _ hi c⟩

/-- No tree is updated with a symbol outside the alphabet: the tables have no prnt entry for it (log 10). -/
theorem execMatchSym_outside {s : State} (ts : TreeSound s.params s.huff) {m : Byte}
    (hm : s.params.nChar ≤ 256 + m.toNat) : exec (.matchSym m) s = .fault .huffmanUnsound := by
  show execMatchSym m s = _
  cases e : s.takeSymbol (256 + m.toNat) with
  | none => rw [execMatchSym, e]
  | some t =>
    obtain ⟨hlt, _⟩ := State.takeSymbol_spec ts.prnt_length e
    omega

/-- Settles O41: every alphabet has the 256 literals. -/
theorem treeExecutesEverySymbol : Obligations.TreeExecutesEverySymbol := by
  intro s ts
  have ha := params_alphabet s.params
  refine ⟨fun c => ?lit, fun m hm => ?matched, fun m hm => execMatchSym_outside ts hm⟩
  case lit =>
    have hc := c.isLt
    obtain ⟨t, e⟩ := State.takeSymbol_on_tree ts (c := c.toNat) (by omega)
    exact ⟨_, execLit_of_take e⟩
  case matched =>
    obtain ⟨t, e⟩ := State.takeSymbol_on_tree ts hm
    exact ⟨_, execMatchSym_of_take e⟩

/-! ### The copy (42_lzhuf.md R195) -/

/-- `s` after a byte of the match has been read, stored and put out. -/
def State.copyByte (s : State) : State :=
  let t := s.output (s.readHist s.dec.mSrc)
  { t with
    dec := { t.dec with mSrc := histIndex s.params (s.dec.mSrc.toNat + 1), mLen := s.dec.mLen - 1 }
    ctl := if s.dec.mLen = 1 then { s.ctl with dstate := .sym } else s.ctl }

section
variable {s : State} (ho : s.out.valid = false)
include ho

/-- A match is cut at declared_len. -/
theorem stepCopy_cut (h : s.dec.outCount = s.env.declaredLen) :
    stepCopy s = ({ s with dec := { s.dec with mLen := 0 } } : State).gotoD .sym := by
  rw [stepCopy, ho, if_neg Bool.false_ne_true, if_pos h]

theorem stepCopy_copyByte (h : s.dec.outCount ≠ s.env.declaredLen) : stepCopy s = s.copyByte := by
  rw [stepCopy, ho, if_neg Bool.false_ne_true, if_neg h]
  have hlast : s.dec.mLen - 1 = 0 ↔ s.dec.mLen = 1 := sub_eq_zero
  simp only [State.copyByte, State.output_dec, hlast]
  split_ifs <;> rfl

end

theorem State.readHist_copyByte_self (s : State) : s.copyByte.readHist s.dec.wpos = s.readHist s.dec.mSrc :=
  s.readHist_output_self _

theorem State.readHist_copyByte_ne (s : State) {i : HistIndex} (h : i ≠ s.dec.wpos) :
    s.copyByte.readHist i = s.readHist i := s.readHist_output_ne h _

/-- Settles O44. -/
theorem copyStep : Obligations.CopyStep := by
  intro s e he hp hd ho
  rw [step_eq_engineTurn he, engineTurn_copy hp hd]
  refine ⟨fun hfin => by rw [stepCopy_cut ho hfin]; rfl, fun hne _ => ?_⟩
  rw [stepCopy_copyByte ho hne]
  refine ⟨_, rfl, ?_, e.readHist_copyByte_self, fun i hi => e.readHist_copyByte_ne hi⟩
  have hlast : e.dec.mLen = 1 ↔ e.dec.mLen.toNat = 1 := BitVec.toNat_inj.symm
  have hctl : (if e.dec.mLen = 1 then { e.ctl with dstate := .sym } else e.ctl) =
      { e.ctl with dstate := if e.dec.mLen.toNat = 1 then .sym else .copy } := by
    simp only [hlast]
    split_ifs
    · rfl
    · rw [← hd]
  rw [← hctl]
  rfl

end Sys2Proof.Machine
end

section
/-!
A match repeats the window (42_lzhuf.md R195, R200, R292): what one copied byte leaves for the next, and the bytes that a run
of COPY steps has stored. Settles O45.
-/

namespace Sys2Proof.Machine

open Sys2Proof.Config (Params)

/-! ### Places in the window (42_lzhuf.md R200) -/

theorem histIndex_congr {p : Params} {a b : Nat} (h : a % p.N = b % p.N) : histIndex p a = histIndex p b := by
  rw [histIndex, h, histIndex]

theorem histIndex_self {p : Params} {i : HistIndex} (h : i.toNat < p.N) : histIndex p i.toNat = i := by
  apply BitVec.eq_of_toNat_eq
  rw [histIndex_toNat, Nat.mod_eq_of_lt h]

/-- Fewer than N places on is another place. -/
theorem add_mod_ne_self {w k n : Nat} (hw : w < n) (h0 : 0 < k) (hk : k < n) : (w + k) % n ≠ w := by
  rcases Nat.lt_or_ge (w + k) n with h | h
  · rw [Nat.mod_eq_of_lt h]
    omega
  · rw [Nat.mod_eq_sub_mod h, Nat.mod_eq_of_lt (by omega)]
    omega

theorem histIndex_add_ne {p : Params} {i : HistIndex} {k : Nat} (hi : i.toNat < p.N) (h0 : 0 < k) (hk : k < p.N) :
    histIndex p (i.toNat + k) ≠ i := by
  intro e
  have h := congrArg BitVec.toNat e
  rw [histIndex_toNat] at h
  exact add_mod_ne_self hi h0 hk h

/-! ### One step and the consumer's take -/

/-- A COPY step, after which the consumer has taken the byte. -/
def State.copyTake (s : State) : State :=
  { stepCopy s with out := { (stepCopy s).out with valid := false } }

theorem copyTaken_succ (n : Nat) (s : State) : copyTaken (n + 1) s = copyTaken n s.copyTake := rfl

/-- Where `n` more COPY steps copy a byte each. -/
structure CanCopy (s : State) (n : Nat) : Prop where
  out_empty : s.out.valid = false
  wpos_lt : s.dec.wpos.toNat < s.params.N
  length_le : n ≤ s.dec.mLen.toNat
  count_le : s.dec.outCount.toNat + n ≤ s.env.declaredLen.toNat

section
variable {s : State} {n : Nat} (can : CanCopy s (n + 1))
include can

theorem CanCopy.copyTake_eq :
    s.copyTake = { s.copyByte with out := { s.copyByte.out with valid := false } } := by
  have hcount := can.count_le
  have hne : s.dec.outCount ≠ s.env.declaredLen := by
    intro e
    rw [e] at hcount
    omega
  rw [State.copyTake, stepCopy_copyByte can.out_empty hne]

theorem CanCopy.outCount : s.copyTake.dec.outCount.toNat = s.dec.outCount.toNat + 1 := by
  have hcount := can.count_le
  have hlt := s.env.declaredLen.isLt
  rw [can.copyTake_eq]
  exact BitVec.toNat_add_of_lt (by show s.dec.outCount.toNat + 1 < _; omega)

theorem CanCopy.wpos : s.copyTake.dec.wpos.toNat = (s.dec.wpos.toNat + 1) % s.params.N := by
  rw [can.copyTake_eq]
  exact histIndex_toNat _ _

theorem CanCopy.mSrc : s.copyTake.dec.mSrc.toNat = (s.dec.mSrc.toNat + 1) % s.params.N := by
  rw [can.copyTake_eq]
  exact histIndex_toNat _ _

theorem CanCopy.params : s.copyTake.params = s.params := by
  rw [can.copyTake_eq]
  rfl

theorem CanCopy.readHist_self : s.copyTake.readHist s.dec.wpos = s.readHist s.dec.mSrc := by
  rw [can.copyTake_eq]
  exact s.readHist_copyByte_self

theorem CanCopy.readHist_ne {i : HistIndex} (h : i ≠ s.dec.wpos) : s.copyTake.readHist i = s.readHist i := by
  rw [can.copyTake_eq]
  exact s.readHist_copyByte_ne h

theorem CanCopy.copyTake : CanCopy s.copyTake n where
  out_empty := rfl
  wpos_lt := by
    rw [can.wpos, can.params]
    exact Nat.mod_lt _ (Nat.zero_lt_of_lt can.wpos_lt)
  length_le := by
    have hlen := can.length_le
    have hone : (1 : Byte).toNat = 1 := rfl
    rw [can.copyTake_eq]
    show n ≤ (s.dec.mLen - 1).toNat
    rw [BitVec.toNat_sub_of_le (BitVec.le_def.2 (by omega)), hone]
    omega
  count_le := by
    have hcount := can.count_le
    have henv : s.copyTake.env = s.env := by rw [can.copyTake_eq]; rfl
    rw [can.outCount, henv]
    omega

end

/-! ### A run of steps -/

theorem copyTaken_outCount : ∀ {n : Nat} {s : State}, CanCopy s n →
    (copyTaken n s).dec.outCount.toNat = s.dec.outCount.toNat + n
  | 0, _, _ => rfl
  | n + 1, s, can => by
    rw [copyTaken_succ, copyTaken_outCount can.copyTake, can.outCount]
    omega

theorem copyTaken_wpos : ∀ {n : Nat} {s : State}, CanCopy s n →
    (copyTaken n s).dec.wpos.toNat = (s.dec.wpos.toNat + n) % s.params.N
  | 0, _, can => (Nat.mod_eq_of_lt can.wpos_lt).symm
  | n + 1, s, can => by
    rw [copyTaken_succ, copyTaken_wpos can.copyTake, can.wpos, can.params, Nat.mod_add_mod, Nat.add_assoc, Nat.add_comm 1]

/-- The run stores from wpos on, and nowhere else. -/
theorem copyTaken_readHist_ne {i : HistIndex} : ∀ {n : Nat} {s : State}, CanCopy s n →
    (∀ j, j < n → i ≠ histIndex s.params (s.dec.wpos.toNat + j)) → (copyTaken n s).readHist i = s.readHist i
  | 0, _, _, _ => rfl
  | n + 1, s, can, h => by
    have hfirst : i ≠ s.dec.wpos := histIndex_self can.wpos_lt ▸ h 0 (Nat.zero_lt_succ n)
    rw [copyTaken_succ, copyTaken_readHist_ne can.copyTake fun j hj => ?_, can.readHist_ne hfirst]
    have hplace : histIndex s.params ((s.dec.wpos.toNat + 1) % s.params.N + j) =
        histIndex s.params (s.dec.wpos.toNat + (j + 1)) :=
      histIndex_congr (by rw [Nat.mod_add_mod, Nat.add_assoc, Nat.add_comm 1])
    rw [can.params, can.wpos, hplace]
    exact h (j + 1) (Nat.succ_lt_succ hj)

/-- Of the `d` bytes before wpos the first, copied, becomes the last. -/
theorem CanCopy.readHist_rotate {s : State} {n d : Nat} (can : CanCopy s (n + 1)) (hd : 1 ≤ d) (hdN : d ≤ s.params.N)
    (hsrc : s.dec.mSrc = histIndex s.params (s.dec.wpos.toNat + (s.params.N - d))) (j : Nat) :
    s.copyTake.readHist (histIndex s.params (s.dec.wpos.toNat + 1 + (s.params.N - d + j % d))) =
      s.readHist (histIndex s.params (s.dec.wpos.toNat + (s.params.N - d + (j + 1) % d))) := by
  have hj := Nat.mod_lt j hd
  rw [← Nat.mod_add_mod j d 1]
  rcases Nat.lt_or_ge (j % d + 1) d with hlt | hge
  · rw [Nat.mod_eq_of_lt hlt, show s.dec.wpos.toNat + 1 + (s.params.N - d + j % d) =
      s.dec.wpos.toNat + (s.params.N - d + (j % d + 1)) by omega]
    exact can.readHist_ne (histIndex_add_ne can.wpos_lt (by omega) (by omega))
  · have hwrap : histIndex s.params (s.dec.wpos.toNat + 1 + (s.params.N - d + j % d)) = s.dec.wpos := by
      rw [show s.dec.wpos.toNat + 1 + (s.params.N - d + j % d) = s.dec.wpos.toNat + s.params.N by omega,
        histIndex_congr (Nat.add_mod_right _ _), histIndex_self can.wpos_lt]
    rw [hwrap, show j % d + 1 = d by omega, Nat.mod_self, Nat.add_zero (s.params.N - d), ← hsrc]
    exact can.readHist_self

section
variable {s : State} {n d : Nat} (can : CanCopy s (n + 1))
  (hsrc : s.dec.mSrc = histIndex s.params (s.dec.wpos.toNat + (s.params.N - d)))
include can

/-- Places counted from the next wpos. -/
theorem CanCopy.histIndex_copyTake (k : Nat) :
    histIndex s.copyTake.params (s.copyTake.dec.wpos.toNat + k) = histIndex s.params (s.dec.wpos.toNat + 1 + k) := by
  rw [can.params, can.wpos]
  exact histIndex_congr (Nat.mod_add_mod _ _ _)

/-- The byte stored first stays. -/
theorem CanCopy.copyTaken_first (hn : n + 1 ≤ s.params.N) :
    (copyTaken (n + 1) s).readHist s.dec.wpos = s.readHist s.dec.mSrc := by
  rw [copyTaken_succ, ← can.readHist_self]
  refine copyTaken_readHist_ne can.copyTake fun j hj => ?_
  rw [can.histIndex_copyTake, Nat.add_assoc]
  exact (histIndex_add_ne can.wpos_lt (by omega) (by omega)).symm

include hsrc

/-- Source and wpos move on together. -/
theorem CanCopy.mSrc_eq : s.copyTake.dec.mSrc =
    histIndex s.copyTake.params (s.copyTake.dec.wpos.toNat + (s.copyTake.params.N - d)) := by
  apply BitVec.eq_of_toNat_eq
  rw [can.histIndex_copyTake, can.params, can.mSrc, hsrc, histIndex_toNat, histIndex_toNat, Nat.mod_add_mod,
    Nat.add_right_comm]

end

/-- The run repeats the `d` bytes before wpos. -/
theorem copyTaken_repeats {d : Nat} (hd : 1 ≤ d) {n : Nat} : ∀ {s : State}, CanCopy s n → d ≤ s.params.N →
    n ≤ s.params.N → s.dec.mSrc = histIndex s.params (s.dec.wpos.toNat + (s.params.N - d)) → ∀ j, j < n →
      (copyTaken n s).readHist (histIndex s.params (s.dec.wpos.toNat + j)) =
        s.readHist (histIndex s.params (s.dec.wpos.toNat + (s.params.N - d + j % d))) := by
  induction n with
  | zero => exact fun _ _ _ _ j hj => absurd hj (Nat.not_lt_zero j)
  | succ n ih =>
    intro s can hdN hn hsrc j hj
    cases j with
    | zero =>
      rw [Nat.add_zero s.dec.wpos.toNat, Nat.zero_mod, Nat.add_zero (s.params.N - d), ← hsrc,
        histIndex_self can.wpos_lt]
      exact can.copyTaken_first hn
    | succ j =>
      have hrest := ih can.copyTake (by rw [can.params]; exact hdN) (by rw [can.params]; omega) (can.mSrc_eq hsrc) j
        (Nat.lt_of_succ_lt_succ hj)
      rw [can.histIndex_copyTake, can.histIndex_copyTake, can.params, can.readHist_rotate hd hdN hsrc] at hrest
      rw [copyTaken_succ, ← hrest, Nat.add_assoc, Nat.add_comm 1]

/-- Settles O45. -/
theorem copyRepeatsTheWindow : Obligations.CopyRepeatsTheWindow := by
  intro s n d ho hw hd hdN hsrc hlen hn hcount
  have can : CanCopy s n := ⟨ho, hw, hlen, hcount⟩
  refine ⟨copyTaken_outCount can, copyTaken_wpos can, fun j hj => ?_⟩
  have hback (k : Nat) : s.dec.wpos.toNat + s.params.N - d + k = s.dec.wpos.toNat + (s.params.N - d + k) := by omega
  have hsrc' : s.dec.mSrc = histIndex s.params (s.dec.wpos.toNat + (s.params.N - d)) := by
    apply BitVec.eq_of_toNat_eq
    rw [hsrc, histIndex_toNat, Nat.add_sub_assoc hdN]
  rw [hback]
  exact copyTaken_repeats hd can hdN hn hsrc' j hj

end Sys2Proof.Machine
end

section
/-!
The CRC unit and the CHECK step (43_integrity.md R233, R234). Settles O47 and O46.
-/

namespace Sys2Proof.Machine

open Sys2Proof.Config (Params RawParams)

/-! ### The CRC unit's parameters (43_integrity.md R233) -/

/-- The default parameters with another CRC: reflected in and out, or in neither, and no final xor. -/
def paramsWithCrc (poly init : Half) (reflected : Bool) : Params :=
  ⟨{ RawParams.default with crcPoly := poly, crcInit := init, crcRefin := reflected, crcRefout := reflected },
    Params.default.property⟩

/-- CrcByte reads two of the parameters. -/
theorem crcByte_congr {p q : Params} (hpoly : p.val.crcPoly = q.val.crcPoly) (hin : p.val.crcRefin = q.val.crcRefin) :
    crcByte p = crcByte q := by
  funext c b
  rw [crcByte, crcByte, hpoly, hin]

/-- The CRC of bytes reads the five CRC parameters alone. -/
theorem crc_eq_paramsWithCrc {p : Params} {poly init : Half} {reflected : Bool} (bs : List Byte)
    (hpoly : p.val.crcPoly = poly) (hinit : p.val.crcInit = init) (hin : p.val.crcRefin = reflected)
    (hout : p.val.crcRefout = reflected) (hxor : p.val.crcXorout = 0x0000) :
    crcFinal p (crcFold p bs) =
      crcFinal (paramsWithCrc poly init reflected) (crcFold (paramsWithCrc poly init reflected) bs) := by
  have hbyte : crcByte p = crcByte (paramsWithCrc poly init reflected) := crcByte_congr hpoly hin
  rw [crcFinal, crcFinal, crcFold, crcFold, hbyte, hinit, hout, hxor]
  rfl

/-- Settles O47: each of the four sets is evaluated at the default parameters with its CRC. -/
theorem crcCheckValues : Obligations.CrcCheckValues := by
  intro p
  refine ⟨?_, ?_, ?_, ?_⟩
  all_goals
    rintro ⟨hpoly, hinit, hin, hout, hxor⟩
    refine (crc_eq_paramsWithCrc _ hpoly hinit hin hout hxor).trans ?_
    decide +kernel

/-! ### CHECK (43_integrity.md R234) -/

/-- `s` with the computed CRC recorded. -/
def State.crcRecorded (s : State) : State := { s with dec := { s.dec with crcRes := crcFinal s.params s.checkedCrc } }

section
variable {s : State} (ho : s.out.valid = false)
include ho

theorem stepCheck_mismatch (h : crcFinal s.params s.checkedCrc ≠ s.env.crc) :
    stepCheck s = s.crcRecorded.inError 0x21 0 (s.env.crc.setWidth 32)
      ((crcFinal s.params s.checkedCrc).setWidth 32) := by
  rw [stepCheck, ho, if_neg Bool.false_ne_true]
  exact if_pos h

theorem stepCheck_match (h : crcFinal s.params s.checkedCrc = s.env.crc) : stepCheck s = s.crcRecorded.complete := by
  rw [stepCheck, ho, if_neg Bool.false_ne_true]
  exact if_neg (not_not.2 h)

end

/-- Settles O46. -/
theorem crcCheckStep : Obligations.CrcCheckStep := by
  intro s e he hp ho
  rw [step_eq_engineTurn he, engineTurn_check hp]
  exact ⟨fun h => congrArg _ (stepCheck_mismatch ho h), fun h => congrArg _ (stepCheck_match ho h)⟩

end Sys2Proof.Machine
end

section
/-!
DONE is reached by completion alone (43_integrity.md R230, R236): no other agent leads there, and the engine from three
places. Settles O52.
-/

namespace Sys2Proof.Machine

/-! ### Steps that do not complete -/

/-- The run is not completed. -/
def State.unfinished (s : State) : Prop := s.ctl.phase ≠ .done

theorem HostEffect.unfinished {s t : State} (h : HostEffect s t) (hs : s.unfinished) : t.unfinished := by
  cases h with
  | regs h v => exact hs
  | imageLen v _ _ => exact hs
  | imgData b _ =>
    obtain ⟨hc, _⟩ := s.storeImgData_parts b
    show (s.storeImgData b).unfinished
    rw [State.unfinished, hc]
    exact hs
  | start keep mode phase hb hp =>
    rw [State.start_idle hb]
    rcases hp with rfl | rfl <;> exact nofun
  | abort _ => exact nofun
  | clear _ => exact nofun

theorem runMove_unfinished {m : Move} {s : State} (hm : m ≠ .engine) (hs : s.unfinished) :
    Ensures State.unfinished (runMove m s) := by
  cases m with
  | host op => exact fun t ht => (runWord_hostEffect op s t ht).unfinished hs
  | push _ | endInput | clearEnd | take => exact .next hs
  | engine => exact absurd rfl hm
  | reset => exact .next nofun

section
variable {s : State} (b : Byte) (hs : s.unfinished)
include hs

theorem subj_byte_unfinished : Ensures State.unfinished (exec (decodeByte .subj b) s) := by
  simp only [decodeByte]
  split
  · show Ensures _ (execSubjNul s)
    by_cases h : s.fr.hdrRem.toNat = 1
    · rw [execSubjNul_last h]
      exact .next nofun
    · rw [execSubjNul_more h]
      exact .next hs
  · show Ensures _ (execSubjByte b s)
    rw [execSubjByte_eq]
    split
    · exact .next nofun
    · exact .next hs

theorem execOffsDigit_unfinished : Ensures State.unfinished (execOffsDigit b s) := by
  rcases Nat.lt_or_ge 0xFFFFFFFF (offsetWith s.fr.offsAcc b) with h | h
  · rw [execOffsDigit_overflow b h]
    exact .next nofun
  · rw [execOffsDigit_fits b h]
    split
    · exact .next nofun
    · exact .next hs

theorem execOffsNul_unfinished : Ensures State.unfinished (execOffsNul s) := by
  by_cases hd : s.fr.offsNdig = 0
  · rw [execOffsNul_empty hd]
    exact .next nofun
  · by_cases h : s.fr.hdrRem.toNat = 1
    · rw [execOffsNul_end hd h rfl]
      exact .next hs
    · rw [execOffsNul_early hd h]
      exact .next nofun

theorem execBlkData_unfinished : Ensures State.unfinished (execBlkData b s) := by
  by_cases hfull : s.fr.imageLen.toNat = s.params.cap
  · rw [execBlkData_full b hfull]
    exact .next nofun
  · rw [execBlkData_stored b hfull]
    exact .next hs

/-- Before the checksum every byte goes on framing or enters ERROR (41_framer.md R141 to R150). -/
theorem frame_byte_unfinished {f : FState} (hf : f ≠ .csum) : Ensures State.unfinished (exec (decodeByte f b) s) := by
  cases f with
  | soh | rstx | rlen | blen =>
    simp only [decodeByte]
    split
    · exact .next hs
    · exact .next nofun
  | hlen =>
    simp only [decodeByte]
    split
    · exact .next nofun
    · exact .next hs
  | mark =>
    simp only [decodeByte]
    split_ifs
    · exact .next hs
    · exact .next hs
    · exact .next nofun
  | subj => exact subj_byte_unfinished b hs
  | offs =>
    simp only [decodeByte]
    split_ifs
    · exact execOffsDigit_unfinished b hs
    · exact execOffsNul_unfinished hs
    · exact .next nofun
  | lead =>
    show Ensures _ (execLeadByte b s)
    rw [execLeadByte_eq]
    exact .next hs
  | bdata => exact execBlkData_unfinished b hs
  | csum => exact absurd rfl hf

theorem stepEnv_unfinished : (stepEnv s).unfinished := by
  unfold stepEnv
  split
  · exact nofun
  · exact hs

theorem execLit_unfinished (c : Byte) : Ensures State.unfinished (execLit c s) := by
  unfold execLit
  split
  · exact ensures_fault _ _
  · next e =>
    obtain ⟨h, rfl⟩ := State.takeSymbol_eq e
    exact .next hs

theorem execMatchSym_unfinished (m : Byte) : Ensures State.unfinished (execMatchSym m s) := by
  unfold execMatchSym
  split
  · exact ensures_fault _ _
  · next e =>
    obtain ⟨h, rfl⟩ := State.takeSymbol_eq e
    exact .next hs

theorem State.position_unfinished (hi extra : Nat) (x : Byte) : (s.position hi extra x).unfinished := by
  unfold State.position State.decodePosition
  cases e : State.getBits extra x.toNat s with
  | error u => exact nofun
  | ok r =>
    obtain ⟨v, u⟩ := r
    obtain ⟨rfl, _⟩ := State.getBits_ok e
    simp only
    split
    · exact nofun
    · exact hs

theorem posTurn_unfinished : Ensures State.unfinished (posTurn s) := by
  unfold posTurn
  split
  · exact .next nofun
  · next x u e =>
    obtain ⟨rfl, _⟩ := State.getBits_ok e
    rw [runWord_of_decode rfl, exec_decodePos_eq]
    exact .next (State.position_unfinished (s := s.atBit (s.dec.bitpos + 8)) hs _ _ _)

theorem stepCopy_unfinished : (stepCopy s).unfinished := by
  simp only [stepCopy]
  split_ifs <;> exact hs

end

/-! ### The three places (43_integrity.md R230) -/

/-- From `s` to `t` the run completes: at the checksum byte of a run that only frames, at the finish test without the CRC
check, or at the CRC check. -/
def CompletesAt (s t : State) : Prop :=
  t.host.irqDone = true ∧
    ((s.ctl.phase = .frame ∧ s.ctl.fstate = .csum ∧ s.inp.valid = true ∧ s.inp.data = -s.fr.sum ∧
        (s.ctl.mode ≠ .run ∨ s.fr.resumed = true)) ∨
     (s.ctl.phase = .decode ∧ s.ctl.dstate = .sym ∧ s.out.valid = false ∧ s.host.cfgCrcEn = false ∧
        s.dec.outCount = s.env.declaredLen) ∨
     (s.ctl.phase = .check ∧ s.out.valid = false ∧ t.dec.crcRes = s.env.crc))

/-- From `s`, DONE is reached in `t` by completion or not at all. -/
def DoneByCompletion (s t : State) : Prop := t.ctl.phase = .done → CompletesAt s t

theorem State.unfinished.doneByCompletion {s t : State} (h : t.unfinished) : DoneByCompletion s t :=
  fun hdone => absurd hdone h

theorem Ensures.doneByCompletion {s : State} {r : Result} (h : Ensures State.unfinished r) :
    Ensures (DoneByCompletion s) r := fun t ht => (h t ht).doneByCompletion

section
variable {s : State}

/-- The checksum byte (41_framer.md R151). -/
theorem csum_byte_doneByCompletion (hp : s.ctl.phase = .frame) (hf : s.ctl.fstate = .csum) (hv : s.inp.valid = true) :
    Ensures (DoneByCompletion s) (execCsum s.inp.data s) := by
  by_cases h : s.inp.data = checksumOf s.fr.sum
  · by_cases hrun : s.ctl.mode = .run ∧ s.fr.resumed = false
    · rw [execCsum_decodes h hrun]
      exact .next nofun
    · rw [execCsum_completes h hrun]
      have hframed : s.ctl.mode ≠ .run ∨ s.fr.resumed = true := by simpa [imp_iff_not_or] using hrun
      exact .next fun _ => ⟨rfl, .inl ⟨hp, hf, hv, h, hframed⟩⟩
  · rw [execCsum_mismatch h]
    exact .next nofun

theorem frameTurn_doneByCompletion (hp : s.ctl.phase = .frame) : Ensures (DoneByCompletion s) (frameTurn s) := by
  have hs : s.unfinished := by simp [State.unfinished, hp]
  unfold frameTurn
  split
  · next hv =>
    rw [runWord_frame]
    by_cases hf : s.ctl.fstate = .csum
    · rw [hf]
      exact csum_byte_doneByCompletion hp hf hv
    · exact (frame_byte_unfinished _ hs hf).doneByCompletion
  · split
    · exact .next nofun
    · exact .next hs.doneByCompletion

/-- The finish test (42_lzhuf.md R191). -/
theorem symTurn_doneByCompletion (hp : s.ctl.phase = .decode) (hd : s.ctl.dstate = .sym) :
    Ensures (DoneByCompletion s) (symTurn s) := by
  have hs : s.unfinished := by simp [State.unfinished, hp]
  unfold symTurn
  split_ifs with ho hfin hcrc
  · exact .next hs.doneByCompletion
  · exact .next nofun
  · rw [Bool.not_eq_true] at ho hcrc
    exact .next fun _ => ⟨rfl, .inr (.inl ⟨hp, hd, ho, hcrc, hfin⟩)⟩
  · exact .next nofun
  · split
    · exact ensures_fault _ _
    · exact .next nofun
    · next c u hw =>
      obtain ⟨k, rfl⟩ := State.walk_leaf hw
      split
      · rcases runWord_symbol_cases (BitVec.ofNat 9 c) (s.atBit k) with ⟨c, e⟩ | ⟨m, e⟩ | ⟨r, e⟩ <;> rw [e]
        · exact (execLit_unfinished (s := s.atBit k) hs c).doneByCompletion
        · exact (execMatchSym_unfinished (s := s.atBit k) hs m).doneByCompletion
        · exact ensures_refused _ _
      · exact ensures_fault _ _

/-- The CRC check (R234). -/
theorem stepCheck_doneByCompletion (hp : s.ctl.phase = .check) : DoneByCompletion s (stepCheck s) := by
  cases ho : s.out.valid with
  | true =>
    rw [stepCheck_waits ho]
    exact State.unfinished.doneByCompletion (by simp [State.unfinished, hp])
  | false =>
    by_cases h : crcFinal s.params s.checkedCrc = s.env.crc
    · rw [stepCheck_match ho h]
      exact fun _ => ⟨rfl, .inr (.inr ⟨hp, ho, h⟩)⟩
    · rw [stepCheck_mismatch ho h]
      exact nofun

theorem engineTurn_doneByCompletion (hs : s.unfinished) : Ensures (DoneByCompletion s) (engineTurn s) := by
  cases hp : s.ctl.phase with
  | idle => rw [engineTurn_idle hp]; exact .next hs.doneByCompletion
  | done => exact absurd hp hs
  | error => rw [engineTurn_error hp]; exact .next hs.doneByCompletion
  | frame => rw [engineTurn_frame hp]; exact frameTurn_doneByCompletion hp
  | check => rw [engineTurn_check hp]; exact .next (stepCheck_doneByCompletion hp)
  | decode =>
    cases hd : s.ctl.dstate with
    | env => rw [engineTurn_env hp hd]; exact .next (stepEnv_unfinished hs).doneByCompletion
    | init => rw [engineTurn_init hp hd]; exact .next (State.unfinished.doneByCompletion (t := stepInit s) hs)
    | sym => rw [engineTurn_sym hp hd]; exact symTurn_doneByCompletion hp hd
    | pos => rw [engineTurn_pos hp hd]; exact (posTurn_unfinished hs).doneByCompletion
    | copy => rw [engineTurn_copy hp hd]; exact .next (stepCopy_unfinished hs).doneByCompletion

end

/-- Settles O52: no other agent's move completes the run, and the engine's turn does so in the three places. -/
theorem doneIsReachedByCompletionAlone : Obligations.DoneIsReachedByCompletionAlone := by
  intro s t hstep hs
  have hengine (e : State) (he : EngineHasTurn s e) :
      Ensures (fun t => t.ctl.phase = .done → (∃ e, EngineHasTurn s e) ∧ CompletesAt s t) (engineTurn e) := by
    intro t ht hdone
    have hc : CompletesAt e t := engineTurn_doneByCompletion (he.inherits fun _ => hs) t ht hdone
    exact ⟨⟨e, he⟩, he.inherits (P := fun e => CompletesAt e t → CompletesAt s t) (fun _ => id) hc⟩
  exact step_ensures hengine
    (fun m rest _ hm t ht hdone => absurd hdone (runMove_unfinished (s := { s with agenda := rest }) hm hs t ht)) t hstep

end Sys2Proof.Machine
end

section
/-!
The sticky bits (60_exceptions.md R260, R262): no engine step and no instruction clears one but a write of IRQ_STATUS and the
command CLEAR. Settles O49.
-/

namespace Sys2Proof.Machine

/-! ### Bits that are kept -/

/-- No pending bit of IRQ_STATUS is cleared from `s` to `t` (R260). -/
def KeepsPending (s t : State) : Prop :=
  (s.host.irqDone = true → t.host.irqDone = true) ∧ (s.host.irqErr = true → t.host.irqErr = true)

/-- BADCMD is not cleared from `s` to `t` (R262). -/
def KeepsBadcmd (s t : State) : Prop := s.host.badcmd = true → t.host.badcmd = true

/-- No sticky bit is cleared from `s` to `t`. -/
def KeepsSticky (s t : State) : Prop := KeepsPending s t ∧ KeepsBadcmd s t

section
variable {s t : State}

theorem KeepsPending.not_cleared (h : KeepsPending s t) :
    ¬((s.host.irqDone = true ∧ t.host.irqDone = false) ∨ (s.host.irqErr = true ∧ t.host.irqErr = false)) := by
  obtain ⟨hdone, herr⟩ := h
  rintro (⟨hs, ht⟩ | ⟨hs, ht⟩)
  · simp [hdone hs] at ht
  · simp [herr hs] at ht

theorem KeepsPending.of_eq (hdone : t.host.irqDone = s.host.irqDone) (herr : t.host.irqErr = s.host.irqErr) :
    KeepsPending s t := ⟨fun h => hdone.trans h, fun h => herr.trans h⟩

theorem KeepsSticky.of_eq (hdone : t.host.irqDone = s.host.irqDone) (herr : t.host.irqErr = s.host.irqErr)
    (hbad : t.host.badcmd = s.host.badcmd) : KeepsSticky s t := ⟨.of_eq hdone herr, fun h => hbad.trans h⟩

theorem KeepsSticky.of_host (h : t.host = s.host) : KeepsSticky s t := .of_eq (by rw [h]) (by rw [h]) (by rw [h])

/-- Error entry sets irq_err (R255). -/
theorem KeepsSticky.of_raised (h : t.host = { s.host with irqErr := true }) : KeepsSticky s t := by
  simp +contextual [KeepsSticky, KeepsPending, KeepsBadcmd, h]

/-- Completion sets irq_done (43_integrity.md R236). -/
theorem KeepsSticky.of_completed (h : t.host = { s.host with irqDone := true }) : KeepsSticky s t := by
  simp +contextual [KeepsSticky, KeepsPending, KeepsBadcmd, h]

theorem KeepsSticky.refl (s : State) : KeepsSticky s s := .of_host rfl

/-- A refusal sets badcmd (R262). -/
theorem KeepsSticky.refuse (s : State) : KeepsSticky s s.refuse := ⟨.of_eq rfl rfl, fun _ => rfl⟩

end

/-! ### Instructions (R260, R262) -/

/-- The instructions that may clear a sticky bit: a write of IRQ_STATUS, and CLEAR as a command or as a write of CMD. -/
def mayClearSticky : Instr → Bool
  | .wrIrqStatus _ | .clear | .wrCmd _ => true
  | _ => false

theorem eq_of_mayClearSticky {i : Instr} (h : mayClearSticky i = true) :
    i = .clear ∨ (∃ v, i = .wrCmd v) ∨ ∃ v, i = .wrIrqStatus v := by
  cases i with
  | clear => exact .inl rfl
  | wrCmd v => exact .inr (.inl ⟨v, rfl⟩)
  | wrIrqStatus v => exact .inr (.inr ⟨v, rfl⟩)
  | _ => cases h

theorem start_keepsSticky (s : State) (keep : Bool) (mode : Mode) (phase : Phase) :
    KeepsSticky s (s.start keep mode phase) := by
  cases hb : s.busy with
  | true => rw [State.start_busy hb]; exact .refuse s
  | false => rw [State.start_idle hb]; exact .of_eq rfl rfl rfl

theorem execAbort_keepsSticky (s : State) : Ensures (KeepsSticky s) (execAbort s) := by
  unfold execAbort
  split
  · exact .next (.of_raised rfl)
  · exact .next (.refl s)

theorem execRdImgData_keepsSticky (s : State) : Ensures (KeepsSticky s) (execRdImgData s) := by
  unfold execRdImgData
  split <;> exact .next (.of_eq rfl rfl rfl)

theorem execWrImageLen_keepsSticky (v : Word) (s : State) : Ensures (KeepsSticky s) (execWrImageLen v s) := by
  unfold execWrImageLen
  split
  · exact .next (.refuse s)
  · exact .next (.of_host rfl)

theorem execWrImgData_keepsSticky (v : Word) (s : State) : Ensures (KeepsSticky s) (execWrImgData v s) := by
  unfold execWrImgData State.storeImgData
  split
  · exact .next (.refuse s)
  · split <;> exact .next (.of_eq rfl rfl rfl)

theorem execSubjNul_keepsSticky (s : State) : Ensures (KeepsSticky s) (execSubjNul s) := by
  by_cases h : s.fr.hdrRem.toNat = 1
  · rw [execSubjNul_last h]
    exact .next (.of_raised rfl)
  · rw [execSubjNul_more h]
    exact .next (.of_host rfl)

theorem execSubjByte_keepsSticky (b : Byte) (s : State) : Ensures (KeepsSticky s) (execSubjByte b s) := by
  rw [execSubjByte_eq]
  split
  · exact .next (.of_raised rfl)
  · exact .next (.of_host rfl)

theorem execOffsNul_keepsSticky (s : State) : Ensures (KeepsSticky s) (execOffsNul s) := by
  by_cases hd : s.fr.offsNdig = 0
  · rw [execOffsNul_empty hd]
    exact .next (.of_raised rfl)
  · by_cases h : s.fr.hdrRem.toNat = 1
    · rw [execOffsNul_end hd h rfl]
      exact .next (.of_host rfl)
    · rw [execOffsNul_early hd h]
      exact .next (.of_raised rfl)

theorem execOffsDigit_keepsSticky (b : Byte) (s : State) : Ensures (KeepsSticky s) (execOffsDigit b s) := by
  rcases Nat.lt_or_ge 0xFFFFFFFF (offsetWith s.fr.offsAcc b) with h | h
  · rw [execOffsDigit_overflow b h]
    exact .next (.of_raised rfl)
  · rw [execOffsDigit_fits b h]
    split
    · exact .next (.of_raised rfl)
    · exact .next (.of_host rfl)

theorem execBlkData_keepsSticky (b : Byte) (s : State) : Ensures (KeepsSticky s) (execBlkData b s) := by
  by_cases hfull : s.fr.imageLen.toNat = s.params.cap
  · rw [execBlkData_full b hfull]
    exact .next (.of_raised rfl)
  · rw [execBlkData_stored b hfull]
    exact .next (.of_host rfl)

theorem execCsum_keepsSticky (b : Byte) (s : State) : Ensures (KeepsSticky s) (execCsum b s) := by
  by_cases h : b = checksumOf s.fr.sum
  · by_cases hrun : s.ctl.mode = .run ∧ s.fr.resumed = false
    · rw [execCsum_decodes h hrun]
      exact .next (.of_host rfl)
    · rw [execCsum_completes h hrun]
      exact .next (.of_completed rfl)
  · rw [execCsum_mismatch h]
    exact .next (.of_raised rfl)

theorem execLit_keepsSticky (c : Byte) (s : State) : Ensures (KeepsSticky s) (execLit c s) := by
  unfold execLit
  split
  · exact ensures_fault _ _
  · next e =>
    obtain ⟨h, rfl⟩ := State.takeSymbol_eq e
    exact .next (.of_host rfl)

theorem execMatchSym_keepsSticky (m : Byte) (s : State) : Ensures (KeepsSticky s) (execMatchSym m s) := by
  unfold execMatchSym
  split
  · exact ensures_fault _ _
  · next e =>
    obtain ⟨h, rfl⟩ := State.takeSymbol_eq e
    exact .next (.of_host rfl)

theorem State.position_keepsSticky (s : State) (hi extra : Nat) (x : Byte) : KeepsSticky s (s.position hi extra x) := by
  unfold State.position State.decodePosition
  cases e : State.getBits extra x.toNat s with
  | error u =>
    obtain ⟨k, rfl⟩ := State.getBits_error_atBit e
    exact .of_raised rfl
  | ok r =>
    obtain ⟨v, u⟩ := r
    obtain ⟨rfl, _⟩ := State.getBits_ok e
    simp only
    split
    · exact .of_raised rfl
    · exact .of_host rfl

/-- Every instruction keeps the sticky bits but the three that may clear one. -/
theorem exec_keepsSticky {i : Instr} (h : mayClearSticky i = false) (s : State) : Ensures (KeepsSticky s) (exec i s) := by
  cases i with
  | wrIrqStatus _ | clear | wrCmd _ => cases h
  | run | frameOnly | decodeOnly => exact .next (start_keepsSticky s _ _ _)
  | abort => exact execAbort_keepsSticky s
  | cmdReserved6 | cmdReserved7 | cmdReserved8 | cmdReserved9 | cmdReservedA | cmdReservedB | cmdReservedC | cmdReservedD
  | cmdReservedE | cmdReservedF => exact .next (.refuse s)
  | rdImgData => exact execRdImgData_keepsSticky s
  | wrImageLen v => exact execWrImageLen_keepsSticky v s
  | wrImgData v => exact execWrImgData_keepsSticky v s
  | errMissingHeaderMarker _ | errMalformedHeaderR1 _ | errMalformedHeaderR4 _ | errMalformedResumeStx _
  | errMalformedResumeLen _ | errUnexpectedBlockMarker _ | errBlockLengthInvalid _ => exact .next (.of_raised rfl)
  | subjNul => exact execSubjNul_keepsSticky s
  | subjByte b => exact execSubjByte_keepsSticky b s
  | offsNul => exact execOffsNul_keepsSticky s
  | offsDigit b => exact execOffsDigit_keepsSticky b s
  | leadByte b =>
    show Ensures _ (execLeadByte b s)
    rw [execLeadByte_eq]
    exact .next (.of_host rfl)
  | blkData b => exact execBlkData_keepsSticky b s
  | csum b => exact execCsum_keepsSticky b s
  | lit c => exact execLit_keepsSticky c s
  | matchSym m => exact execMatchSym_keepsSticky m s
  | pos3 _ | pos4 _ | pos5 _ | pos6 _ | pos7 _ | pos8 _ => exact .next (s.position_keepsSticky _ _ _)
  | _ => exact .next (.of_eq rfl rfl rfl)

/-! ### The engine's turn (00_scope.md R17) -/

/-- A framer word encodes none of the three. -/
theorem mayClearSticky_decodeByte (f : FState) (b : Byte) : mayClearSticky (decodeByte f b) = false := by
  obtain ⟨_, henc⟩ := decodeByte_reencodes f b
  refine Bool.eq_false_iff.2 fun h => ?_
  rcases eq_of_mayClearSticky h with e | ⟨v, e⟩ | ⟨v, e⟩ <;> rw [e] at henc <;> cases henc

theorem frameTurn_keepsSticky (s : State) : Ensures (KeepsSticky s) (frameTurn s) := by
  unfold frameTurn
  split
  · rw [runWord_frame]
    exact exec_keepsSticky (mayClearSticky_decodeByte _ _) s
  · split
    · exact .next (.of_raised rfl)
    · exact .next (.refl s)

theorem symTurn_keepsSticky (s : State) : Ensures (KeepsSticky s) (symTurn s) := by
  unfold symTurn
  split_ifs
  · exact .next (.refl s)
  · exact .next (.of_host rfl)
  · exact .next (.of_completed rfl)
  · exact .next (.of_raised rfl)
  · split
    · exact ensures_fault _ _
    · next hw =>
      obtain ⟨k, rfl⟩ := State.walk_truncated hw
      exact .next (.of_raised rfl)
    · next c u hw =>
      obtain ⟨k, rfl⟩ := State.walk_leaf hw
      split
      · rcases runWord_symbol_cases (BitVec.ofNat 9 c) (s.atBit k) with ⟨c, e⟩ | ⟨m, e⟩ | ⟨r, e⟩ <;> rw [e]
        · exact execLit_keepsSticky c (s.atBit k)
        · exact execMatchSym_keepsSticky m (s.atBit k)
        · exact ensures_refused _ _
      · exact ensures_fault _ _

theorem posTurn_keepsSticky (s : State) : Ensures (KeepsSticky s) (posTurn s) := by
  unfold posTurn
  split
  · next u e =>
    obtain ⟨k, rfl⟩ := State.getBits_error_atBit e
    exact .next (.of_raised rfl)
  · next x u e =>
    obtain ⟨rfl, _⟩ := State.getBits_ok e
    rw [runWord_of_decode rfl, exec_decodePos_eq]
    exact .next (State.position_keepsSticky (s.atBit (s.dec.bitpos + 8)) _ _ _)

theorem stepEnv_keepsSticky (s : State) : KeepsSticky s (stepEnv s) := by
  unfold stepEnv
  split
  · exact .of_raised rfl
  · exact .of_host rfl

theorem stepCopy_keepsSticky (s : State) : KeepsSticky s (stepCopy s) := by
  simp only [stepCopy]
  split_ifs <;> exact .of_host rfl

theorem stepCheck_keepsSticky (s : State) : KeepsSticky s (stepCheck s) := by
  simp only [stepCheck]
  split_ifs
  · exact .refl s
  · exact .of_raised rfl
  · exact .of_completed rfl

theorem engineTurn_keepsSticky (s : State) : Ensures (KeepsSticky s) (engineTurn s) := by
  cases hp : s.ctl.phase with
  | idle => rw [engineTurn_idle hp]; exact .next (.refl s)
  | done => rw [engineTurn_done hp]; exact .next (.refl s)
  | error => rw [engineTurn_error hp]; exact .next (.refl s)
  | frame => rw [engineTurn_frame hp]; exact frameTurn_keepsSticky s
  | check => rw [engineTurn_check hp]; exact .next (stepCheck_keepsSticky s)
  | decode =>
    cases hd : s.ctl.dstate with
    | env => rw [engineTurn_env hp hd]; exact .next (stepEnv_keepsSticky s)
    | init => rw [engineTurn_init hp hd]; exact .next (.of_host rfl)
    | sym => rw [engineTurn_sym hp hd]; exact symTurn_keepsSticky s
    | pos => rw [engineTurn_pos hp hd]; exact posTurn_keepsSticky s
    | copy => rw [engineTurn_copy hp hd]; exact .next (stepCopy_keepsSticky s)

/-! ### The host's step -/

/-- A host step runs the command it issues, or a register access other than a write of CMD (40_host_commands.md R110). -/
theorem runWord_command_or_access (op : HostOp) (s : State) :
    (∃ v, op.issues (decodeCmd v) ∧ runWord op.word s = exec (decodeCmd v) s) ∨
      ∃ i, isRegisterAccess i = true ∧ decode op.word = .instr i ∧ runWord op.word s = exec i s := by
  cases op with
  | command w => exact .inl ⟨w, .inl rfl, rfl⟩
  | read a => exact .inr ⟨decodeRd a, isRegisterAccess_decodeRd a, rfl, rfl⟩
  | write a v =>
    rcases decodeWr_cases a v with hcmd | haccess
    · have hdec : decode (HostOp.write a v).word = .instr (.wrCmd v) := congrArg Decoded.instr hcmd
      exact .inl ⟨v, .inr ⟨v, hdec, rfl⟩, (runWord_of_decode hdec s).trans (exec_decodeCmd v s).symm⟩
    · exact .inr ⟨decodeWr a v, haccess, rfl, rfl⟩

/-- CLEAR is the one command that may clear a sticky bit. -/
theorem mayClearSticky_decodeCmd {v : Word} (h : decodeCmd v ≠ .clear) : mayClearSticky (decodeCmd v) = false := by
  revert h
  unfold decodeCmd
  generalize v.extractLsb' 0 4 = code
  revert code
  decide

/-- A write of IRQ_STATUS is the one register access that may clear a sticky bit. -/
theorem mayClearSticky_access {i : Instr} (h : isRegisterAccess i = true) (hc : mayClearSticky i = true) :
    ∃ v, i = .wrIrqStatus v := by
  rcases eq_of_mayClearSticky hc with rfl | ⟨_, rfl⟩ | ⟨v, rfl⟩
  · cases h
  · cases h
  · exact ⟨v, rfl⟩

/-- A host step that clears a pending bit is a write of IRQ_STATUS, and one that clears badcmd is CLEAR while not busy
(40_host_commands.md R117, R124). -/
def HostClearsAtMost (op : HostOp) (s t : State) : Prop :=
  (KeepsPending s t ∨ ∃ v, decode op.word = .instr (.wrIrqStatus v)) ∧
    (KeepsBadcmd s t ∨ (s.busy = false ∧ op.issues .clear))

theorem KeepsSticky.hostClearsAtMost {op : HostOp} {s t : State} (h : KeepsSticky s t) : HostClearsAtMost op s t := by
  obtain ⟨hpending, hbadcmd⟩ := h
  exact ⟨.inl hpending, .inl hbadcmd⟩

theorem execClear_hostClearsAtMost {op : HostOp} (hi : op.issues .clear) (s : State) :
    Ensures (HostClearsAtMost op s) (execClear s) := by
  cases hb : s.busy with
  | true => rw [execClear_busy hb]; exact .next (KeepsSticky.refuse s).hostClearsAtMost
  | false => rw [execClear_idle hb]; exact .next ⟨.inl (.of_eq rfl rfl), .inr ⟨hb, hi⟩⟩

theorem runWord_hostClearsAtMost (op : HostOp) (s : State) : Ensures (HostClearsAtMost op s) (runWord op.word s) := by
  have keeps {i : Instr} (hi : mayClearSticky i = false) : Ensures (HostClearsAtMost op s) (exec i s) :=
    fun t ht => (exec_keepsSticky hi s t ht).hostClearsAtMost
  rcases runWord_command_or_access op s with ⟨v, hissues, e⟩ | ⟨i, haccess, hdec, e⟩ <;> rw [e]
  · by_cases hclear : decodeCmd v = .clear
    · rw [hclear] at hissues ⊢
      exact execClear_hostClearsAtMost hissues s
    · exact keeps (mayClearSticky_decodeCmd hclear)
  · cases hi : mayClearSticky i with
    | true =>
      obtain ⟨v, rfl⟩ := mayClearSticky_access haccess hi
      exact .next ⟨.inr ⟨v, hdec⟩, .inl id⟩
    | false => exact keeps hi

/-! ### The step -/

/-- A step that clears a sticky bit is a reset, or a host step that may clear it. -/
def StepClearsAtMost (s t : State) : Prop :=
  (KeepsPending s t ∨ ∃ m rest, s.agenda = m :: rest ∧
    (m = .reset ∨ ∃ op v, m = .host op ∧ decode op.word = .instr (.wrIrqStatus v))) ∧
  (KeepsBadcmd s t ∨ ∃ m rest, s.agenda = m :: rest ∧
    (m = .reset ∨ (s.busy = false ∧ ∃ op, m = .host op ∧ op.issues .clear)))

theorem KeepsSticky.stepClearsAtMost {s t : State} (h : KeepsSticky s t) : StepClearsAtMost s t := by
  obtain ⟨hpending, hbadcmd⟩ := h
  exact ⟨.inl hpending, .inl hbadcmd⟩

theorem HostClearsAtMost.stepClearsAtMost {op : HostOp} {rest : List Move} {s t : State}
    (h : HostClearsAtMost op s t) (ha : s.agenda = .host op :: rest) : StepClearsAtMost s t := by
  obtain ⟨hpending, hbadcmd⟩ := h
  refine ⟨hpending.imp_right ?_, hbadcmd.imp_right ?_⟩
  · rintro ⟨v, hdec⟩
    exact ⟨_, rest, ha, .inr ⟨op, v, rfl, hdec⟩⟩
  · rintro ⟨hb, hissues⟩
    exact ⟨_, rest, ha, .inr ⟨hb, op, rfl, hissues⟩⟩

theorem step_clearsAtMost (s : State) : Ensures (StepClearsAtMost s) (step s) := by
  refine step_ensures (fun e he t ht => ?engine) (fun m rest ha hm => ?move)
  case engine =>
    have hkeep : KeepsSticky e t := engineTurn_keepsSticky e t ht
    exact (he.inherits (P := fun e => KeepsSticky e t → KeepsSticky s t) (fun _ => id) hkeep).stepClearsAtMost
  case move =>
    cases m with
    | host op =>
      intro t ht
      have hclears : HostClearsAtMost op s t := runWord_hostClearsAtMost op { s with agenda := rest } t ht
      exact hclears.stepClearsAtMost ha
    | push _ | endInput | clearEnd | take => exact .next (KeepsSticky.of_host rfl).stepClearsAtMost
    | engine => exact absurd rfl hm
    | reset => exact .next ⟨.inr ⟨_, rest, ha, .inl rfl⟩, .inr ⟨_, rest, ha, .inl rfl⟩⟩

/-- Settles O49. -/
theorem stickyBitsAreClearedByTheHostAlone : Obligations.StickyBitsAreClearedByTheHostAlone := by
  intro s t hstep
  obtain ⟨hpending, hbadcmd⟩ := step_clearsAtMost s t hstep
  refine ⟨fun hcleared => hpending.resolve_left fun h => h.not_cleared hcleared, fun hs ht => hbadcmd.resolve_left ?_⟩
  intro h
  simp [h hs] at ht

end Sys2Proof.Machine
end

section
/-!
From ERROR to elsewhere (60_exceptions.md R258, R259): the engine waits there, and of the host's steps only CLEAR and the start
commands leave it. Settles O51.
-/

namespace Sys2Proof.Machine

/-- Still in ERROR with the same error registers. -/
def StaysInError (s t : State) : Prop := t.ctl.phase = .error ∧ t.err = s.err

/-- The command `i` leads out of ERROR as R258 and R115 say: CLEAR keeps the error registers, a start clears them. -/
def LeavesErrorBy (i : Instr) (s t : State) : Prop :=
  (i = .clear ∧ t.ctl.phase = .idle ∧ t.err = s.err) ∨
    ((i = .run ∨ i = .frameOnly) ∧ t.ctl.phase = .frame ∧ t.err = ⟨0, 0, 0, 0⟩) ∨
    (i = .decodeOnly ∧ t.ctl.phase = .decode ∧ t.err = ⟨0, 0, 0, 0⟩)

section
variable {s : State} (hp : s.ctl.phase = .error)
include hp

theorem State.busy_of_error : s.busy = false := by
  simp [State.busy, hp]

theorem StaysInError.of_eq {t : State} (hctl : t.ctl = s.ctl) (herr : t.err = s.err) : StaysInError s t :=
  ⟨hctl ▸ hp, herr⟩

/-- A command in ERROR: NOP, ABORT and the reserved codes stay there (40_host_commands.md R111 to R119). -/
theorem exec_command_fromError (v : Word) :
    Ensures (fun t => StaysInError s t ∨ LeavesErrorBy (decodeCmd v) s t) (exec (decodeCmd v) s) := by
  have hb : s.busy = false := State.busy_of_error hp
  have start (keep : Bool) (mode : Mode) (phase : Phase) : (s.start keep mode phase).ctl.phase = phase ∧
      (s.start keep mode phase).err = ⟨0, 0, 0, 0⟩ := by
    rw [State.start_idle hb]
    exact ⟨rfl, rfl⟩
  unfold decodeCmd
  split
  case h_2 => exact .next (.inr (.inr (.inl ⟨.inl rfl, start false .run .frame⟩)))
  case h_3 => exact .next (.inr (.inr (.inl ⟨.inr rfl, start false .frameOnly .frame⟩)))
  case h_4 => exact .next (.inr (.inr (.inr ⟨rfl, start true .decodeOnly .decode⟩)))
  case h_5 =>
    show Ensures _ (execAbort s)
    rw [execAbort_idle hb]
    exact .next (.inl (.of_eq hp rfl rfl))
  case h_6 =>
    show Ensures _ (execClear s)
    rw [execClear_idle hb]
    exact .next (.inr (.inl ⟨rfl, rfl, rfl⟩))
  all_goals exact .next (.inl (.of_eq hp rfl rfl))

/-- A host step in ERROR stays there or is one of the four commands: a register access moves no phase (R251). -/
theorem runWord_host_fromError (op : HostOp) :
    Ensures (fun t => StaysInError s t ∨ ∃ i, op.issues i ∧ LeavesErrorBy i s t) (runWord op.word s) := by
  rcases runWord_command_or_access op s with ⟨v, hissues, e⟩ | ⟨i, haccess, _, e⟩ <;> rw [e]
  · exact fun t ht => (exec_command_fromError hp v t ht).imp_right fun h => ⟨_, hissues, h⟩
  · obtain ⟨t, hexec, hquiet⟩ := exec_access_quiet haccess s
    rw [hexec]
    exact .next (.inl (.of_eq hp hquiet.ctl hquiet.err))

end

theorem step_fromError {s : State} (hp : s.ctl.phase = .error) (hreset : ∀ rest, s.agenda ≠ .reset :: rest) :
    Ensures (fun t => StaysInError s t ∨ ∃ op rest i, s.agenda = .host op :: rest ∧ op.issues i ∧ LeavesErrorBy i s t)
      (step s) := by
  refine step_ensures (fun e he => ?engine) (fun m rest ha hm => ?move)
  case engine =>
    rw [engineTurn_error (he.inherits (P := fun e => e.ctl.phase = .error) fun _ => hp)]
    exact .next (.inl (he.inherits fun _ => .of_eq hp rfl rfl))
  case move =>
    cases m with
    | host op =>
      intro t ht
      exact (runWord_host_fromError (s := { s with agenda := rest }) hp op t ht).imp_right fun ⟨i, hissues, h⟩ =>
        ⟨op, rest, i, ha, hissues, h⟩
    | push _ | endInput | clearEnd | take => exact .next (.inl (.of_eq hp rfl rfl))
    | engine => exact absurd rfl hm
    | reset => exact absurd ha (hreset rest)

/-- Settles O51. -/
theorem errorLastsUntilTheHostActs : Obligations.ErrorLastsUntilTheHostActs := by
  intro s t hstep hp hreset
  refine (step_fromError hp hreset t hstep).imp_right ?_
  rintro ⟨op, rest, i, ha, hissues, ⟨rfl, h⟩ | ⟨rfl | rfl, h⟩ | ⟨rfl, h⟩⟩
  · exact ⟨op, rest, ha, .inl ⟨hissues, h⟩⟩
  · exact ⟨op, rest, ha, .inr (.inl ⟨.inl hissues, h⟩)⟩
  · exact ⟨op, rest, ha, .inr (.inl ⟨.inr hissues, h⟩)⟩
  · exact ⟨op, rest, ha, .inr (.inr ⟨hissues, h⟩)⟩

end Sys2Proof.Machine
end

section
/-!
The state right after reset (70_reset_and_hazards.md R280; 10_state.md R62). Settles O4 and O53.
-/

namespace Sys2Proof.Machine

open Sys2Proof.Config (Params)

/-! ### The reset table -/

/-- The reset block amid its agents: a plan, what they have seen, and a count of resets. The block built anew and the block
reset are both such a state. -/
def State.resetAmid (p : Params) (agenda : List Move) (rdata : Word) (taken : List Byte) (epoch : Nat) : State :=
  { State.resetWith p with agenda := agenda, rdata := rdata, taken := taken, epoch := epoch }

section
variable (p : Params) (agenda : List Move) (rdata : Word) (taken : List Byte) (epoch : Nat)

/-- STATUS shows phase IDLE, mode NONE and no flag, whatever the parameters. -/
theorem State.resetAmid_status : (State.resetAmid p agenda rdata taken epoch).status = 0 := by
  have hzero : State.reset.status = 0 := by decide
  exact hzero

/-- No interrupt is pending. -/
theorem State.resetAmid_regIrqStatus : (State.resetAmid p agenda rdata taken epoch).regIrqStatus = 0 := by
  have hzero : State.reset.regIrqStatus = 0 := by decide
  exact hzero

end

theorem exec_rdStatus_of {s : State} {v : Word} (h : s.status = v) : exec .rdStatus s = .next { s with rdata := v } := by
  rw [← h]
  rfl

theorem exec_rdIrqStatus_of {s : State} {v : Word} (h : s.regIrqStatus = v) :
    exec .rdIrqStatus s = .next { s with rdata := v } := by
  rw [← h]
  rfl

/-- Settles O4: the block built anew and the block reset differ only in what R280 does not speak of. -/
theorem resetLeavesSpecValues : Obligations.ResetLeavesSpecValues := by
  unfold Obligations.ResetLeavesSpecValues
  intro afterReset
  have amid (p : Params) (agenda : List Move) (rdata : Word) (taken : List Byte) (epoch : Nat) :
      afterReset (State.resetAmid p agenda rdata taken epoch) := by
    have hirq := exec_rdIrqStatus_of (State.resetAmid_regIrqStatus p agenda rdata taken epoch)
    have hstatus := exec_rdStatus_of (State.resetAmid_status p agenda rdata taken epoch)
    exact ⟨rfl, rfl, rfl, rfl, rfl, rfl, rfl, rfl, rfl, fun _ => rfl, fun _ => rfl, rfl, hirq, rfl, rfl, hstatus⟩
  refine ⟨amid Params.default [] 0 [] 0, fun p => ⟨amid p [] 0 [] 0, rfl⟩, fun s rest ha => ?reset⟩
  have hstep : step s = .next (State.resetAmid s.params rest s.rdata s.taken (s.epoch + 1)) := step_eq_runMove ha rfl
  exact ⟨_, hstep, amid _ _ _ _ _, rfl⟩

/-! ### The invariants -/

/-- Settles O53: the block is in IDLE, where no run is and no table is read. -/
theorem resetMeetsTheInvariants : Obligations.ResetMeetsTheInvariants := by
  intro p
  have hphase : (State.resetWith p).ctl.phase = .idle := rfl
  exact ⟨State.resetWith_wellShaped p, countersPositive_of_not_busy rfl, progressOk_of_idle hphase (Nat.zero_le _),
    treeReady_of_phase (by simp [hphase])⟩

end Sys2Proof.Machine
end

section
/-!
The configuration of a run is latched (70_reset_and_hazards.md R288): a start command alone writes it, and while the block is
busy that command is refused. Settles O50.
-/

namespace Sys2Proof.Machine

/-! ### The configuration is kept -/

/-- The configuration of the run, cfg_crc_en and cfg_strict (10_state.md R32). -/
def State.config (s : State) : Bool × Bool := (s.host.cfgCrcEn, s.host.cfgStrict)

/-- `t` has the configuration of `s`. -/
def KeepsConfig (s t : State) : Prop := t.config = s.config

theorem keepsConfig_iff (s t : State) :
    KeepsConfig s t ↔ t.host.cfgCrcEn = s.host.cfgCrcEn ∧ t.host.cfgStrict = s.host.cfgStrict := by
  simp [KeepsConfig, State.config]

/-- What both branches ensure a test ensures. -/
theorem Ensures.ite {P : State → Prop} {c : Prop} {dec : Decidable c} {r r' : Result} (h : Ensures P r)
    (h' : Ensures P r') : Ensures P (if c then r else r') := by
  split
  · exact h
  · exact h'

section
variable {s : State}

/-! ### Instructions while the block is busy (R288) -/

theorem start_keepsConfig (hb : s.busy = true) (keep : Bool) (mode : Mode) (phase : Phase) :
    KeepsConfig s (s.start keep mode phase) := by
  rw [State.start_busy hb]
  rfl

theorem execAbort_keepsConfig : Ensures (KeepsConfig s) (execAbort s) := .ite (.next rfl) (.next rfl)

theorem execClear_keepsConfig : Ensures (KeepsConfig s) (execClear s) := .ite (.next rfl) (.next rfl)

theorem runCommand_keepsConfig (hb : s.busy = true) (v : Word) : Ensures (KeepsConfig s) (runCommand v s) := by
  unfold runCommand
  split
  case h_2 | h_3 | h_4 => exact .next (start_keepsConfig hb _ _ _)
  case h_5 => exact execAbort_keepsConfig
  case h_6 => exact execClear_keepsConfig
  all_goals exact .next rfl

theorem execWrImgData_keepsConfig (v : Word) : Ensures (KeepsConfig s) (execWrImgData v s) := by
  unfold execWrImgData State.storeImgData
  split
  · exact .next rfl
  · split <;> exact .next rfl

theorem execLit_keepsConfig (c : Byte) : Ensures (KeepsConfig s) (execLit c s) := by
  unfold execLit
  split
  · exact ensures_fault _ _
  · next e =>
    obtain ⟨h, rfl⟩ := State.takeSymbol_eq e
    exact .next rfl

theorem execMatchSym_keepsConfig (m : Byte) : Ensures (KeepsConfig s) (execMatchSym m s) := by
  unfold execMatchSym
  split
  · exact ensures_fault _ _
  · next e =>
    obtain ⟨h, rfl⟩ := State.takeSymbol_eq e
    exact .next rfl

theorem State.position_keepsConfig (hi extra : Nat) (x : Byte) : KeepsConfig s (s.position hi extra x) := by
  unfold State.position State.decodePosition
  cases e : State.getBits extra x.toNat s with
  | error u =>
    obtain ⟨k, rfl⟩ := State.getBits_error_atBit e
    rfl
  | ok r =>
    obtain ⟨v, u⟩ := r
    obtain ⟨rfl, _⟩ := State.getBits_ok e
    simp only
    split <;> rfl

/-- While the block is busy no instruction writes the configuration: a write of CTRL leaves it (40_host_commands.md R121), and
the start commands are refused (R112 to R114). -/
theorem exec_keepsConfig (hb : s.busy = true) (i : Instr) : Ensures (KeepsConfig s) (exec i s) := by
  cases i with
  | run | frameOnly | decodeOnly => exact .next (start_keepsConfig hb _ _ _)
  | abort => exact execAbort_keepsConfig
  | clear => exact execClear_keepsConfig
  | wrCmd v => exact runCommand_keepsConfig hb v
  | wrImgData v => exact execWrImgData_keepsConfig v
  | rdImgData | wrImageLen _ | subjNul | subjByte _ | leadByte _ => exact .ite (.next rfl) (.next rfl)
  | offsNul | offsDigit _ | blkData _ | csum _ => exact .ite (.next rfl) (.ite (.next rfl) (.next rfl))
  | lit c => exact execLit_keepsConfig c
  | matchSym m => exact execMatchSym_keepsConfig m
  | pos3 _ | pos4 _ | pos5 _ | pos6 _ | pos7 _ | pos8 _ => exact .next (State.position_keepsConfig _ _ _)
  | _ => exact .next rfl

theorem runWord_keepsConfig (hb : s.busy = true) (w : Raw) : Ensures (KeepsConfig s) (runWord w s) := by
  unfold runWord
  split
  · exact exec_keepsConfig hb _
  · exact ensures_refused _ _

/-! ### The engine's turn (00_scope.md R17) -/

theorem frameTurn_keepsConfig (hb : s.busy = true) : Ensures (KeepsConfig s) (frameTurn s) :=
  .ite (runWord_keepsConfig hb _) (.ite (.next rfl) (.next rfl))

/-- The walk moves the bit position alone, and the symbol's instruction runs on from there (42_lzhuf.md R191). -/
theorem symTurn_keepsConfig (hb : s.busy = true) : Ensures (KeepsConfig s) (symTurn s) := by
  refine .ite (.next rfl) (.ite (.ite (.next rfl) (.next rfl)) (.ite (.next rfl) ?_))
  split
  · exact ensures_fault _ _
  · next hw =>
    obtain ⟨k, rfl⟩ := State.walk_truncated hw
    exact .next rfl
  · next hw =>
    obtain ⟨k, rfl⟩ := State.walk_leaf hw
    exact .ite (runWord_keepsConfig (s := s.atBit k) hb _) (ensures_fault _ _)

theorem posTurn_keepsConfig (hb : s.busy = true) : Ensures (KeepsConfig s) (posTurn s) := by
  unfold posTurn
  split
  · next e =>
    obtain ⟨k, rfl⟩ := State.getBits_error_atBit e
    exact .next rfl
  · next e =>
    obtain ⟨rfl, _⟩ := State.getBits_ok e
    exact runWord_keepsConfig (s := s.atBit (s.dec.bitpos + 8)) hb _

theorem stepEnv_keepsConfig : KeepsConfig s (stepEnv s) := by
  unfold stepEnv
  split <;> rfl

theorem stepCopy_keepsConfig : KeepsConfig s (stepCopy s) := by
  simp only [stepCopy]
  split_ifs <;> rfl

theorem stepCheck_keepsConfig : KeepsConfig s (stepCheck s) := by
  simp only [stepCheck]
  split_ifs <;> rfl

theorem engineTurn_keepsConfig (hb : s.busy = true) : Ensures (KeepsConfig s) (engineTurn s) := by
  cases hp : s.ctl.phase with
  | idle | done | error => simp [State.busy, hp] at hb
  | frame => rw [engineTurn_frame hp]; exact frameTurn_keepsConfig hb
  | check => rw [engineTurn_check hp]; exact .next stepCheck_keepsConfig
  | decode =>
    cases hd : s.ctl.dstate with
    | env => rw [engineTurn_env hp hd]; exact .next stepEnv_keepsConfig
    | init => rw [engineTurn_init hp hd]; exact .next rfl
    | sym => rw [engineTurn_sym hp hd]; exact symTurn_keepsConfig hb
    | pos => rw [engineTurn_pos hp hd]; exact posTurn_keepsConfig hb
    | copy => rw [engineTurn_copy hp hd]; exact .next stepCopy_keepsConfig

/-! ### The step -/

/-- A reset alone takes the configuration from a busy block, and leaves it in IDLE (R280). -/
theorem step_keepsConfig (hb : s.busy = true) : Ensures (fun t => t.busy = true → KeepsConfig s t) (step s) := by
  refine step_ensures (fun e he t ht _ => ?engine) (fun m rest _ hm => ?move)
  case engine =>
    have hkeep : KeepsConfig e t := engineTurn_keepsConfig (he.inherits (P := fun e => e.busy = true) fun _ => hb) t ht
    exact he.inherits (P := fun e => KeepsConfig e t → KeepsConfig s t) (fun _ => id) hkeep
  case move =>
    cases m with
    | host op => exact fun t ht _ => runWord_keepsConfig (s := { s with agenda := rest }) hb op.word t ht
    | push _ | endInput | clearEnd | take => exact .next fun _ => rfl
    | engine => exact absurd rfl hm
    | reset => exact .next nofun

end

/-- Settles O50. -/
theorem configurationIsLatchedForTheRun : Obligations.ConfigurationIsLatchedForTheRun :=
  fun s t hstep hb hbusy => (keepsConfig_iff s t).1 (step_keepsConfig hb t hstep hbusy)

end Sys2Proof.Machine
end
